-- ==== Sys2Proof/Word.lean ====
section
/-! DEFINITION. The word types of the RNK2416: the native 20-bit word, bytes, nut values and the
instance numbers of the blocks (R1, R2, R7, R10, R16). -/

namespace Sys2Proof

/-- The native word and the width of every register (R7, R16). -/
abbrev Word := BitVec 20
/-- A byte of a packet buffer, of host memory or of the flash. -/
abbrev Byte := BitVec 8
/-- A nut value: 80 bits in units of 2^-16 ns (R9, R10). -/
abbrev Nut := BitVec 80
/-- A full time: 100 bits, seconds, nanoseconds, 2^-22 ns (R10, R42). -/
abbrev FullTime := BitVec 100
/-- A rate: 40 bits signed, 0.01 ppt (R10, R11). -/
abbrev Rate := BitVec 40
/-- A 60-bit float60 or counter value (R349, R420). -/
abbrev W60 := BitVec 60
/-- A position of a TDC line's transition, 0 to 383 (R66). -/
abbrev Code := Fin 384

abbrev CourseId := Fin 4
abbrev StrId := Fin 16
abbrev CtxId := Fin 128
abbrev PortId := Fin 24
abbrev TunId := Fin 16
abbrev LineId := Fin 66
abbrev PickId := Fin 8
abbrev FmuId := Fin 8
abbrev SlotId := Fin 16
abbrev PluckId := Fin 256
abbrev OutId := Fin 8
abbrev FoutId := Fin 4
abbrev ChanId := Fin 96
abbrev RingId := Fin 8
abbrev ReplicaId := Fin 28
abbrev LaneId := Fin 32
abbrev DomainId := Fin 12

end Sys2Proof
end

