-- ==== Sys2Proof/Syntax.lean ====
section
/-! DEFINITION. The commands of the RNK2416: one constructor of `Instr` for each row of
spec/opcode_table.json, in the table's order, with the operands each takes from outside the device.
A docstring names the row's rule. What the environment alone decides (a TDC code, the bytes of a
frame, a correlator value, the contents of the flash) is an operand. -/

namespace Sys2Proof

/-- The fields of a Linkan-20 instruction word beside OP (R316). -/
structure Fields where
  cond : BitVec 4
  wid  : BitVec 3
  sf   : Bool
  mode : BitVec 4
  dst  : BitVec 6
  srca : BitVec 6
  srcb : BitVec 6
  bsel : BitVec 2
  imm  : Word
  deriving DecidableEq, Repr

/-- A DMA ring (R512, R514). -/
inductive RingSel where
  | rx (r : RingId)
  | tx (t : RingId)
  deriving DecidableEq, Repr

/-- A regression unit: a pick's, or a frequency measurement unit's (R126, R167). -/
inductive GateUnit where
  | pick (p : PickId)
  | fmu (u : FmuId)
  deriving DecidableEq, Repr

/-- A general or an edge pluck (R131). -/
inductive AnyPluck where
  | gen (g : PluckId)
  | edge (o : OutId)
  deriving DecidableEq, Repr

/-- A programmable counter: EVk of a string or CEVk of a course (R423, R424). -/
inductive CounterSel where
  | str (s : StrId) (k : Fin 8)
  | crs (c : CourseId) (k : Fin 4)
  deriving DecidableEq, Repr

/-- The memories of R457 that a scrubber reads (R454). -/
inductive MemKind where
  | programTable | dataSram | packetBuffer | clientTable | harpMemory
  | tdcTable | registerFile | stringState | pickQueue | laneState
  deriving DecidableEq, Repr

/-- What a scrubber's read of a memory finds: a word it corrects, or an uncorrectable one (R454). -/
structure ScrubFind where
  kind  : MemKind
  fixed : Bool
  deriving DecidableEq, Repr

/-- A record offered to a receive ring (R512). -/
inductive RxRecord where
  | pick (entry : Vector Word 5) (p : PickId)
  | punt (c : CourseId) (desc : Vector Word 12) (frame : List Byte)
  deriving DecidableEq, Repr

/-- The supply monitors' readings in 0.1 mV, by supply (R479): VDD_TI, VDD_TDC, the groups
VDD_SB_C0 to C3 and VDD_SB_G, VDD_SD, VDDA_SD, VDDIO18, VDDIO33. -/
structure SupplyLevels where
  ti   : Nat
  tdc  : Nat
  sb   : Vector Nat 5
  sd   : Nat
  sda  : Nat
  io18 : Nat
  io33 : Nat
  deriving DecidableEq, Repr

/-- What the receive PCS of a port gives with a frame (R85, R86): the TDC code of the receive word edge E, and how many UIs
the frame's timestamp point lies behind the last one counted, or behind the start of the count. -/
structure RxMark where
  code : Code
  ui   : Nat
  deriving DecidableEq, Repr

/-- What the transmit PCS of a port gives with a frame (R85, R87): the TDC code of the transmit word edge E, how many words have been
launched since the last frame entered the fill stage, or since the count's start, and the distance in UIs from the word that leaves the
fill stage's depth behind the word launched on E to the frame's timestamp point. -/
structure TxMark where
  code : Code
  word : Nat
  ui   : Nat
  deriving DecidableEq, Repr

/-- What a line of a pick shows of an edge (R66): its code, and whether it captured it on the tick before this one. -/
structure Capture where
  code  : Code
  early : Bool
  deriving DecidableEq, Repr

/-- The transmit-ring entry the DMA engine reads from host memory (R514). -/
structure TxEntry where
  len    : BitVec 16
  port   : Byte
  report : Bool
  tag    : BitVec 32
  deriving DecidableEq, Repr

/-- A run of `n` equal samples of one band: the codes on its I and Q buses (R217). -/
structure SampleRun where
  i : BitVec 4
  q : BitVec 4
  n : Nat
  deriving DecidableEq, Repr

/-- A dump of a channel (R233): the seven correlators of each component as (I, Q), from −2D to +2D, as the carrier and code NCOs
left them, the secondary code wiped off a 20 ms dump (R234). L1 C/A has no pilot, and its correlators idle (R216). -/
structure Dump where
  pilot : Vector (Int × Int) 7
  data  : Vector (Int × Int) 7
  deriving DecidableEq, Repr

/-- How the multipath estimator rounds ALPHA and THETA, which R243 leaves open: up or down. -/
structure MpFit where
  alphaUp : Bool
  thetaUp : Bool
  deriving DecidableEq, Repr

/-- A navigation item as the channel's decoder takes it in (R260): its bits, the first transmitted one on top (hard bits, or the
Viterbi decoder's), its symbols as received, the first on top, without sync patterns; the last six bits before a CNAV message,
where its coder stood; the symbols in the places of its two sync patterns (I/NAV: one for each part; F/NAV: its own and the next
page's), right-aligned; whether an I/NAV part lacks its partner; the sample position of its first symbol in 2⁻³² sample, and
SYMCNT. -/
structure NavItem where
  bits     : BitVec 300
  symbols  : BitVec 600
  start    : BitVec 6
  sync     : BitVec 24
  unpaired : Bool
  si       : BitVec 80
  symcnt   : BitVec 40
  deriving DecidableEq, Repr

/-- The commands. -/
inductive Instr where
  /-- R470 -/
  | powerOn (loSel : BitVec 3)
  /-- R558: a low level on RST_N that lasts `ns` nanoseconds or more. -/
  | rstNAssert (ns : Nat)
  /-- R540 -/
  | rstNRelease (loSel : BitVec 3)
  /-- R473 -/
  | pllLock
  /-- R37 -/
  | nutStart
  /-- R488; the flash's bytes from 0 on. -/
  | coldBoot (flash : List Byte)
  /-- R471; the word written to DEV_RST. -/
  | coldResetCmd (v : Word)
  /-- R473; the word written to DEV_RST. -/
  | warmReset (v : Word)
  /-- R491 -/
  | warmBoot (flash : List Byte)
  /-- R551 -/
  | jtagDevrst
  /-- R551 -/
  | jtagExtest
  /-- R551; the boundary-scan register's new contents, sampled at the balls or shifted in. -/
  | jtagSamplePreload (bsr : List Bool)
  /-- R551 -/
  | jtagIdcode
  /-- R551; 0xFF or any unlisted code. -/
  | jtagBypass (code : Byte)
  /-- R475 -/
  | courseResetHold (c : CourseId)
  /-- R475 -/
  | courseResetRelease (c : CourseId)
  /-- R478 -/
  | perstAssert
  /-- R472 -/
  | perstRelease
  /-- R503 -/
  | pcieLinkDown
  /-- R503 -/
  | pcieHotReset
  /-- R503 -/
  | functionLevelReset
  /-- R503 -/
  | d3hotEntry
  /-- R503 -/
  | busMasterDisable
  /-- R466; the crossing's index of R469. -/
  | voidClear (x : Fin 56)
  /-- R468; the island's crossing index of R469 (PCS 0 to 47, harp 48, PCIe 49). -/
  | islandClockLoss (x : Fin 50)
  /-- R476 -/
  | domainSwitchOn (d : DomainId)
  /-- R477 -/
  | domainSwitchOff (d : DomainId)
  /-- R476 -/
  | domainPowerUpDone (d : DomainId)
  /-- R477 -/
  | domainPowerDownDone (d : DomainId)
  /-- R479 -/
  | supplySample (l : SupplyLevels)
  /-- R79, R480 -/
  | tempSensorUpdate (n : Fin 4) (theta : BitVec 16)
  /-- R542 -/
  | loInLoss
  /-- R542 -/
  | loInReturn
  /-- R542 -/
  | pllResettle
  /-- R39; the disturbances that struck replicas since the last check, as bits to invert. -/
  | checkTick (upset : List (ReplicaId × Nut))
  /-- R40 -/
  | nutNowRead
  /-- R33; the issues per microsecond the window counted. -/
  | speedWindowEnd (c : CourseId) (mips : BitVec 12)
  /-- R33 -/
  | speedCfgWrite (c : CourseId) (v : Word)
  /-- R51 -/
  | tunCommitFull (t : TunId) (parentT0 : Bool)
  /-- R51 -/
  | tunCommitRate (t : TunId)
  /-- R51 -/
  | tunCommitStep (t : TunId)
  /-- R52 -/
  | commitTick
  /-- R50 -/
  | tunRead (t : TunId)
  /-- R61; the word written to TUN_LEAP_CTRL. -/
  | leapArm (v : Word)
  /-- R61 -/
  | leapCancel (v : Word)
  /-- R59 -/
  | leapStep
  /-- R59 -/
  | leapSecEnd
  /-- R60 -/
  | smearStart
  /-- R60 -/
  | smearEnd
  /-- R69; a hit of `code` assigned to the tick window `window`. -/
  | calibrationHit (l : LineId) (code : Code) (window : Nut)
  /-- R71 -/
  | tableComplete (l : LineId)
  /-- R80 -/
  | driftEval (l : LineId)
  /-- R78 -/
  | staleRise (l : LineId)
  /-- R83 -/
  | tdcCtrlWrite (v : Word)
  /-- R85 -/
  | pcsLockGain (p : PortId)
  /-- R92 -/
  | pcsLockLoss (p : PortId)
  /-- R91; the words counted in the window. -/
  | fretWindowEnd (p : PortId) (tx : Bool) (n : Word)
  /-- R276; the frame without its FCS, whether the FCS check passed, whether a codeword was uncorrectable. -/
  | rxFrame (p : PortId) (frame : List Byte) (fcsOk cwBad : Bool) (m : RxMark)
  /-- R87 -/
  | txFillEntry (p : PortId) (m : TxMark)
  /-- R293 -/
  | txFrameDone (p : PortId)
  /-- R274; the word written to PRT_CTRL. -/
  | portReset (p : PortId) (v : Word)
  /-- R274 -/
  | portResetEnd (p : PortId) (v : Word)
  /-- R277; the levels of MODABS0 to MODABS23. -/
  | moduleSample (levels : BitVec 24)
  /-- R278; the word written to PRT_I2C_CMD. -/
  | i2cReadCmd (p : PortId) (v : Word)
  /-- R278 -/
  | i2cWriteCmd (p : PortId) (v : Word)
  /-- R278; whether the module acknowledged, and the bytes it gave. -/
  | i2cComplete (p : PortId) (ack : Bool) (data : BitVec 16)
  /-- R286; the action word. -/
  | steerCommit (c : CourseId) (e : Fin 64) (v : Word)
  /-- R307 -/
  | descriptorDispatch (x : CtxId)
  /-- R308 -/
  | pluckStartDispatch (x : CtxId)
  /-- R338 -/
  | hostStart (c : CourseId)
  /-- R308 -/
  | hostStartDispatch (x : CtxId)
  /-- R318 -/
  | hostEvent (c : CourseId)
  /-- R290 -/
  | puntCopy (c : CourseId)
  /-- R515 -/
  | txDoorbell (t : RingId) (v : Word)
  /-- R291; the entry and the frame read from host memory, and whether the frame read failed. -/
  | txRingFetch (t : RingId) (e : TxEntry) (frame : List Byte) (err : Bool)
  /-- R515 -/
  | txRingComplete (t : RingId)
  /-- R513 -/
  | rxRingRecord (r : RingId) (rec : RxRecord)
  /-- R516; the word written to the ring's CTRL. -/
  | ringEnable (r : RingSel) (v : Word)
  /-- R516 -/
  | ringDisable (r : RingSel) (v : Word)
  /-- R152 -/
  | launchPluckFire (p : PortId)
  /-- R294; the first available start slot's nut value. -/
  | launchDepart (p : PortId) (slot : Nut)
  /-- R108; the edge's direction and the code each line shows (none: the line did not see it). -/
  | pickEdge (p : PickId) (rising : Bool) (codeA codeB : Option Capture)
  /-- R110 -/
  | pickCtrlWrite (p : PickId) (v : Word)
  /-- R111 -/
  | pickLosTimeout (p : PickId)
  /-- R115 -/
  | pickQpop (p : PickId)
  /-- R116; to PICK_DRAIN_BASE when `base`, else to PICK_DRAIN. -/
  | pickDrainWrite (p : PickId) (base : Bool) (v : Word)
  /-- R116 -/
  | pickDrainEntry (p : PickId)
  /-- R118 -/
  | pickDrainPoll (p : PickId)
  /-- R119; the stop channel. -/
  | intervalPair (p : PickId)
  /-- R120; the stop channel. -/
  | startUnused (p : PickId)
  /-- R122 -/
  | gateAutoClose (u : GateUnit)
  /-- R122 -/
  | gateLimitClose (u : GateUnit)
  /-- R124 -/
  | gateResult (u : GateUnit)
  /-- R127 -/
  | hc0SelWrite (v : Word)
  /-- R128; the crossing of the threshold, as capture tick and code (none: no crossing in the slot). -/
  | touchSlot (pad : Fin 4) (crossing : Option (Nut × Code))
  /-- R167 -/
  | fmuEdge (u : FmuId)
  /-- R168 -/
  | fmuLosTimeout (u : FmuId)
  /-- R134; the word written to PLK_CMD. -/
  | pluckArm (g : PluckId) (v : Word)
  /-- R134 -/
  | pluckDisarm (g : PluckId)
  /-- R134 -/
  | edgePluckArm (o : OutId) (v : Word)
  /-- R134 -/
  | edgePluckDisarm (o : OutId)
  /-- R158 -/
  | edgeCalStart (o : OutId)
  /-- R135 -/
  | pluckArmTick (a : AnyPluck)
  /-- R137: every general pluck that is due on this tick. -/
  | pluckFire
  /-- R154; what HC0 saw of the edge, as capture tick and code. -/
  | edgePluckFire (o : OutId) (hc0 : Option (Nut × Code))
  /-- R154 -/
  | edgeTrailing (o : OutId) (hc0 : Option (Nut × Code))
  /-- R156 -/
  | edgeEnWrite (o : OutId) (v : Word)
  /-- R158 -/
  | edgeCalComplete (o : OutId)
  /-- R158 -/
  | edgeCalTimeout (o : OutId)
  /-- R148 -/
  | pluckReconvert (a : AnyPluck)
  /-- R169 -/
  | sampleTimeout (s : SlotId)
  /-- R175 -/
  | holdoffExpiry (s : SlotId)
  /-- R171 -/
  | qualExpiry (s : SlotId)
  /-- R171 -/
  | wtrExpiry (s : SlotId)
  /-- R163 -/
  | voteTick
  /-- R181 -/
  | xchkEnd (s : SlotId)
  /-- R171 -/
  | rsCfgWrite (s : SlotId) (v : Word)
  /-- R181 -/
  | rsClear (s : SlotId)
  /-- R174 -/
  | selCtrlWrite (v : Word)
  /-- R185 -/
  | dpllUpdate
  /-- R194 -/
  | bridgeSecondTick
  /-- R199 -/
  | stepGo
  /-- R199 -/
  | stepNostep
  /-- R200 -/
  | stepSquelchStart
  /-- R200 -/
  | stepCommit
  /-- R200 -/
  | stepSeqEnd
  /-- R201 -/
  | unseqSquelchEnd (o : OutId)
  /-- R206; the top word written, to BRG_FOUT_DIV when `div`, else to BRG_FOUT_M. -/
  | foutCommit (f : FoutId) (div : Bool) (v : Word)
  /-- R206 -/
  | foutPllLock (f : FoutId)
  /-- R208 -/
  | synceCtrlWrite (v : Word)
  /-- R210 -/
  | irigCfLatch
  /-- R211 -/
  | todRecordStart (u : Fin 2)
  /-- R219; the edges counted in the window. -/
  | harpClkWindow (n : Nat)
  /-- R219 -/
  | harpClkTimeout
  /-- R220; the samples of the window, and SI of the one behind them. -/
  | bandStatWindow (upper : Bool) (runs : List SampleRun) (si : BitVec 48)
  /-- R222 -/
  | harpMarker
  /-- R222 -/
  | mapFit
  /-- R221; the HARP_CLK edges since the latest marker. -/
  | harpSiRead (off : BitVec 10)
  /-- R244 -/
  | harpCtrlWrite (v : Word)
  /-- R232; the word written to HARP_SREQ4. -/
  | searchCommit (v : Word)
  /-- R232 -/
  | searchAbort
  /-- R232 -/
  | searchFlush
  /-- R228; S of each cell of the pass, in order. -/
  | strumPassEnd (ss : List Nat)
  /-- R229; for each window of the pass, in order, S of each of its cells. -/
  | smallPassEnd (ws : List (List Nat))
  /-- R236 -/
  | channelDump (h : ChanId) (d : Dump)
  /-- R235 -/
  | pullinTimeout (h : ChanId)
  /-- R235 -/
  | pllTimeout (h : ChanId)
  /-- R235 -/
  | lolTimeout (h : ChanId)
  /-- R235 -/
  | reacqTimeout (h : ChanId)
  /-- R240 -/
  | reacqQueue (h : ChanId)
  /-- R235 -/
  | channelStop (h : ChanId)
  /-- R242 -/
  | mpEstimate (h : ChanId) (fit : MpFit)
  /-- R252; the words of the slot behind the channel records. -/
  | measRecordWrite (rest : List Word)
  /-- R262 -/
  | navEntry (h : ChanId) (item : NavItem)
  /-- R340 -/
  | nop (x : CtxId) (f : Fields)
  /-- R343 -/
  | br (x : CtxId) (f : Fields)
  /-- R314 -/
  | call (x : CtxId) (f : Fields)
  /-- R314 -/
  | ret (x : CtxId) (f : Fields)
  /-- R325 -/
  | yield (x : CtxId) (f : Fields)
  /-- R325 -/
  | halt (x : CtxId) (f : Fields)
  /-- R321 -/
  | wait (x : CtxId) (f : Fields)
  /-- R322 -/
  | eventWake (x : CtxId)
  /-- R322 -/
  | waitTimeout (x : CtxId)
  /-- R344 -/
  | armpArm (x : CtxId) (f : Fields)
  /-- R344 -/
  | armpDisarm (x : CtxId) (f : Fields)
  /-- R346 -/
  | add (x : CtxId) (f : Fields)
  /-- R346 -/
  | adc (x : CtxId) (f : Fields)
  /-- R346 -/
  | sub (x : CtxId) (f : Fields)
  /-- R346 -/
  | sbc (x : CtxId) (f : Fields)
  /-- R346 -/
  | cmp (x : CtxId) (f : Fields)
  /-- R346 -/
  | neg (x : CtxId) (f : Fields)
  /-- R346 -/
  | and (x : CtxId) (f : Fields)
  /-- R346 -/
  | or (x : CtxId) (f : Fields)
  /-- R346 -/
  | xor (x : CtxId) (f : Fields)
  /-- R346 -/
  | bic (x : CtxId) (f : Fields)
  /-- R346 -/
  | tst (x : CtxId) (f : Fields)
  /-- R346 -/
  | mov (x : CtxId) (f : Fields)
  /-- R346 -/
  | setw (x : CtxId) (f : Fields)
  /-- R347 -/
  | shl (x : CtxId) (f : Fields)
  /-- R347 -/
  | shr (x : CtxId) (f : Fields)
  /-- R347 -/
  | sar (x : CtxId) (f : Fields)
  /-- R347 -/
  | rol (x : CtxId) (f : Fields)
  /-- R348 -/
  | mull (x : CtxId) (f : Fields)
  /-- R346 -/
  | mulh (x : CtxId) (f : Fields)
  /-- R346 -/
  | mulhs (x : CtxId) (f : Fields)
  /-- R348 -/
  | divu (x : CtxId) (f : Fields)
  /-- R348 -/
  | remu (x : CtxId) (f : Fields)
  /-- R346 -/
  | clz (x : CtxId) (f : Fields)
  /-- R346 -/
  | stm (x : CtxId) (f : Fields)
  /-- R349 -/
  | fadd (x : CtxId) (f : Fields)
  /-- R349 -/
  | fsub (x : CtxId) (f : Fields)
  /-- R349 -/
  | fmul (x : CtxId) (f : Fields)
  /-- R349 -/
  | fdiv (x : CtxId) (f : Fields)
  /-- R349 -/
  | fsqrt (x : CtxId) (f : Fields)
  /-- R350 -/
  | fcmp (x : CtxId) (f : Fields)
  /-- R349 -/
  | fabs (x : CtxId) (f : Fields)
  /-- R349 -/
  | fneg (x : CtxId) (f : Fields)
  /-- R351 -/
  | fcvti (x : CtxId) (f : Fields)
  /-- R351 -/
  | fcvtf (x : CtxId) (f : Fields)
  /-- R349 -/
  | fscl (x : CtxId) (f : Fields)
  /-- R24 -/
  | rdnut (x : CtxId) (f : Fields)
  /-- R352 -/
  | n2t (x : CtxId) (f : Fields)
  /-- R352 -/
  | t2n (x : CtxId) (f : Fields)
  /-- R340 -/
  | sdiff (x : CtxId) (f : Fields)
  /-- R353 -/
  | sext (x : CtxId) (f : Fields)
  /-- R353 -/
  | ntpf (x : CtxId) (f : Fields)
  /-- R354 -/
  | tcmtFull (x : CtxId) (f : Fields)
  /-- R354 -/
  | tcmtRate (x : CtxId) (f : Fields)
  /-- R354 -/
  | tcmtStep (x : CtxId) (f : Fields)
  /-- R315 -/
  | setpw (x : CtxId) (f : Fields)
  /-- R355 -/
  | ldf (x : CtxId) (f : Fields)
  /-- R355 -/
  | stf (x : CtxId) (f : Fields)
  /-- R356 -/
  | cksum (x : CtxId) (f : Fields)
  /-- R357 -/
  | sendPlain (x : CtxId) (f : Fields)
  /-- R357 -/
  | sendOneStep (x : CtxId) (f : Fields)
  /-- R357 -/
  | sendLaunch (x : CtxId) (f : Fields)
  /-- R359 -/
  | punt (x : CtxId) (f : Fields)
  /-- R359 -/
  | drop (x : CtxId) (f : Fields)
  /-- R363 -/
  | tlkp (x : CtxId) (f : Fields)
  /-- R363 -/
  | tins (x : CtxId) (f : Fields)
  /-- R363 -/
  | tupd (x : CtxId) (f : Fields)
  /-- R363 -/
  | tdel (x : CtxId) (f : Fields)
  /-- R363 -/
  | tage (x : CtxId) (f : Fields)
  /-- R366 -/
  | sivs (x : CtxId) (f : Fields)
  /-- R366 -/
  | sivo (x : CtxId) (f : Fields)
  /-- R368 -/
  | cmac (x : CtxId) (f : Fields)
  /-- R368 -/
  | hmac (x : CtxId) (f : Fields)
  /-- R369 -/
  | laneJobStart (c : CourseId)
  /-- R320 -/
  | cryptoComplete (l : LaneId)
  /-- R320 -/
  | sendComplete (c : CourseId)
  /-- R303 -/
  | stallResultReturn (x : CtxId)
  /-- R370 -/
  | rdcnt (x : CtxId) (f : Fields)
  /-- R370 -/
  | tagrd (x : CtxId) (f : Fields)
  /-- R370 -/
  | tagwr (x : CtxId) (f : Fields)
  /-- R371 -/
  | post (x : CtxId) (f : Fields)
  /-- R446 -/
  | dbell (x : CtxId) (f : Fields)
  /-- R330 -/
  | runawayFault (x : CtxId)
  /-- R331 -/
  | watchdogExpiry (s : StrId)
  /-- R448; `state` for a failed sequencer check, else an uncorrectable error at a place of R457. -/
  | hardwareFaultDetect (s : StrId) (state : Bool) (mem : BitVec 4) (addr : BitVec 22)
  /-- R333 -/
  | stringRestart (s : StrId)
  /-- R306 -/
  | contextRestart (x : CtxId)
  /-- R335 -/
  | courseDrain (c : CourseId)
  /-- R335 -/
  | courseDrained (c : CourseId)
  /-- R335 -/
  | drainTimeout (c : CourseId)
  /-- R335 -/
  | courseGo (c : CourseId)
  /-- R450; `round` for a round-check mismatch. -/
  | laneFault (l : LaneId) (round : Bool)
  /-- R459; the word written to CRS_LANE. -/
  | laneRestart (c : CourseId) (v : Word)
  /-- R454; the unit index within the memory kind, and the word's address. -/
  | scrubError (m : ScrubFind) (unit : Byte) (addr : BitVec 22)
  /-- R431 -/
  | counterSelectWrite (k : CounterSel) (v : Word)
  /-- R431 -/
  | strCounterClr (s : StrId)
  /-- R431 -/
  | portCounterClr (p : PortId)
  /-- R426 -/
  | bwLenWrite (p : PortId) (v : Word)
  /-- R426 -/
  | bwWindowEnd (p : PortId)
  /-- R433 -/
  | dumpRecordWrite
  /-- R436 -/
  | legWindowRead
  /-- R436 -/
  | legVal2Read
  /-- R493; the word written to CFG_LOAD, and the flash's bytes. -/
  | courseLoad (v : Word) (flash : List Byte)
  /-- R495 -/
  | spiCommand (v : Word)
  /-- R495; the bytes the flash returned. -/
  | spiCommandDone (data : List Byte)
  /-- R517 -/
  | keyCmdEmpty (slot : Fin 256)
  /-- R517 -/
  | keyCmdCmac128 (slot : Fin 256)
  /-- R517 -/
  | keyCmdCmac256 (slot : Fin 256)
  /-- R517 -/
  | keyCmdSiv (slot : Fin 256)
  /-- R517 -/
  | keyCmdHmac (slot : Fin 256) (len : BitVec 7)
  /-- R506; the BAR0 byte address of word 0. -/
  | multiwordLatch (addr : Nat)
  /-- R506; the BAR0 byte address of the highest word, and the word written. -/
  | multiwordCommit (addr : Nat) (v : Word)
  /-- R504; `full` when every byte enable is set. -/
  | registerWrite (addr : Nat) (v : Word) (full : Bool)
  /-- R510; one DW of a BAR2 write with its four byte enables. -/
  | bar2Write (addr : Nat) (v : BitVec 32) (be : BitVec 4)
  /-- R521; the levels of KEY0 to KEY7, active low. -/
  | keySample (levels : Byte)
  /-- R522 -/
  | keyLongExpiry (k : Fin 8)
  /-- R525; the levels of ANT_OPEN and ANT_SHORT. -/
  | antSample (opn short : Bool)
  /-- R529 -/
  | panelEvtPop
  /-- R493 -/
  | courseLoadDone
  /-- R502; the codes of DEV_PCIE_STAT. -/
  | pcieLinkUp (speed : BitVec 3) (width : BitVec 4)
  /-- R275 -/
  | anDone (p : PortId)
  /-- R275 -/
  | hiBerChange (p : PortId) (high : Bool)
  /-- R275 -/
  | linkFaultSignal (p : PortId) (fault : Bool)
  /-- R503 -/
  | busMasterEnable
  /-- R551 -/
  | jtagTestLogicReset
  /-- R209; what HC0 saw of the edge, as capture tick and code. -/
  | irigElementEdge (o : OutId) (hc0 : Option (Nut × Code))
  /-- R468 -/
  | islandClockReturn (x : Fin 50)
  /-- R208 -/
  | synceSynthLock
  deriving DecidableEq, Repr

end Sys2Proof
end

