-- ==== Sys2Proof/Decode.lean ====
section
/-! DEFINITION. The commands that words of spec/opcode_table.json spell, and the Linkan-20 instruction that three words of a program
table hold (R316). No row of the table gives bits: a command reaches the block as an access, a frame, an edge or an event, so no word
of the table spells one. -/

namespace Sys2Proof

/-- The command that a word of `nbits` bits spells: none, since the table gives no row any bits. -/
def decodeTableWord (_nbits _w : Nat) : Option Instr := none

/-- Bits [lo + len - 1 : lo] of an instruction. -/
def insBits (w lo len : Nat) : Nat := (w >>> lo) % 2 ^ len

/-- The fields of an instruction of 60 bits, word A in its top 20 (R316). -/
def Fields.ofIns (w : Nat) : Fields :=
  { cond := BitVec.ofNat 4 (insBits w 48 4), wid := BitVec.ofNat 3 (insBits w 45 3), sf := insBits w 44 1 == 1,
    mode := BitVec.ofNat 4 (insBits w 40 4), dst := BitVec.ofNat 6 (insBits w 34 6), srca := BitVec.ofNat 6 (insBits w 28 6),
    srcb := BitVec.ofNat 6 (insBits w 22 6), bsel := BitVec.ofNat 2 (insBits w 20 2), imm := BitVec.ofNat 20 w }

/-- The instruction of context x that an OP code names with MODE m and its fields (R316, R327, and the tables of the instruction
reference); none for a code with no instruction assigned. TCMT and SEND with MODE[1:0] = 3 go to the rows that refuse it. -/
def insOf (x : CtxId) (op m : Nat) (f : Fields) : Option Instr :=
  match op with
  | 0x00 => some (.nop x f)
  | 0x01 => some (.br x f)
  | 0x02 => some (.call x f)
  | 0x03 => some (.ret x f)
  | 0x04 => some (.yield x f)
  | 0x05 => some (.halt x f)
  | 0x06 => some (.wait x f)
  | 0x07 => some (if m % 2 = 0 then .armpArm x f else .armpDisarm x f)
  | 0x20 => some (.add x f)
  | 0x21 => some (.adc x f)
  | 0x22 => some (.sub x f)
  | 0x23 => some (.sbc x f)
  | 0x24 => some (.cmp x f)
  | 0x25 => some (.neg x f)
  | 0x28 => some (.and x f)
  | 0x29 => some (.or x f)
  | 0x2A => some (.xor x f)
  | 0x2B => some (.bic x f)
  | 0x2C => some (.tst x f)
  | 0x30 => some (.mov x f)
  | 0x31 => some (.setw x f)
  | 0x38 => some (.shl x f)
  | 0x39 => some (.shr x f)
  | 0x3A => some (.sar x f)
  | 0x3B => some (.rol x f)
  | 0x40 => some (.mull x f)
  | 0x41 => some (.mulh x f)
  | 0x42 => some (.mulhs x f)
  | 0x44 => some (.divu x f)
  | 0x45 => some (.remu x f)
  | 0x48 => some (.clz x f)
  | 0x50 => some (.stm x f)
  | 0x60 => some (.fadd x f)
  | 0x61 => some (.fsub x f)
  | 0x62 => some (.fmul x f)
  | 0x63 => some (.fdiv x f)
  | 0x64 => some (.fsqrt x f)
  | 0x65 => some (.fcmp x f)
  | 0x66 => some (.fabs x f)
  | 0x67 => some (.fneg x f)
  | 0x68 => some (.fcvti x f)
  | 0x69 => some (.fcvtf x f)
  | 0x6A => some (.fscl x f)
  | 0x80 => some (.rdnut x f)
  | 0x81 => some (.n2t x f)
  | 0x82 => some (.t2n x f)
  | 0x83 => some (.sdiff x f)
  | 0x84 => some (.sext x f)
  | 0x85 => some (.ntpf x f)
  | 0x88 => some (if m % 4 = 1 then .tcmtRate x f else if m % 4 = 2 then .tcmtStep x f else .tcmtFull x f)
  | 0x90 => some (.setpw x f)
  | 0x91 => some (.ldf x f)
  | 0x92 => some (.stf x f)
  | 0x94 => some (.cksum x f)
  | 0xA0 => some (if m % 4 = 1 then .sendOneStep x f else if m % 4 = 2 then .sendLaunch x f else .sendPlain x f)
  | 0xA4 => some (.punt x f)
  | 0xA5 => some (.drop x f)
  | 0xB0 => some (.tlkp x f)
  | 0xB1 => some (.tins x f)
  | 0xB2 => some (.tupd x f)
  | 0xB3 => some (.tdel x f)
  | 0xB4 => some (.tage x f)
  | 0xC0 => some (.sivs x f)
  | 0xC1 => some (.sivo x f)
  | 0xC2 => some (.cmac x f)
  | 0xC3 => some (.hmac x f)
  | 0xD0 => some (.rdcnt x f)
  | 0xD1 => some (.tagrd x f)
  | 0xD2 => some (.tagwr x f)
  | 0xD3 => some (.post x f)
  | 0xD4 => some (.dbell x f)
  | _ => none

/-- The instruction of context x that 60 bits of the program table hold (R35, R316). -/
def decodeIns (x : CtxId) (w : Nat) : Option Instr := insOf x (insBits w 52 8) (insBits w 40 4) (Fields.ofIns w)

end Sys2Proof
end

