-- ==== Sys2Proof/Machine/Bits.lean ====
section
/-! DEFINITION. Bit fields of words (R4), multi-word values (R7), saturating counts and sparse maps: a list of
addresses and values in one canonical form, addresses strictly rising and no entry equal to what an unlisted
address reads as. -/

namespace Sys2Proof.Machine

/-- Field [lo + len − 1 : lo] of a word (R4). -/
def fld (w : Word) (lo len : Nat) : Nat := (w.toNat >>> lo) % 2 ^ len

/-- Bit [n] of a word (R4). -/
def bitOf (w : Word) (n : Nat) : Bool := w.getLsbD n

/-- A word with 1 in field [lo + len − 1 : lo] and 0 elsewhere. -/
def fldMask (lo len : Nat) : Word := BitVec.ofNat 20 ((2 ^ len - 1) <<< lo)

/-- A word with field [lo + len − 1 : lo] replaced. -/
def putFld (w : Word) (lo len v : Nat) : Word :=
  (w &&& ~~~(fldMask lo len)) ||| BitVec.ofNat 20 ((v % 2 ^ len) <<< lo)

/-- A word with bit [n] replaced. -/
def putBit (w : Word) (n : Nat) (b : Bool) : Word := putFld w n 1 b.toNat

/-- A field read as a signed number (R5). -/
def sfld (w : Word) (lo len : Nat) : Int :=
  let v := fld w lo len
  if 2 * v < 2 ^ len then (v : Int) else (v : Int) - (2 : Int) ^ len

/-- A count that saturates at 0xF_FFFF. -/
def satAdd (w : Word) (k : Nat) : Word := BitVec.ofNat 20 (min 0xFFFFF (w.toNat + k))

/-- An integer as a signed number of `n` bits, saturating at the ends of the range (R5). -/
def satSigned (n : Nat) (x : Int) : BitVec n :=
  if x > (2 : Int) ^ (n - 1) - 1 then BitVec.ofInt n ((2 : Int) ^ (n - 1) - 1)
  else if x < -((2 : Int) ^ (n - 1)) then BitVec.ofInt n (-((2 : Int) ^ (n - 1)))
  else BitVec.ofInt n x

/-- Whether an integer lies in the signed range of `n` bits. -/
def fitsSigned (n : Nat) (x : Int) : Bool :=
  decide (-((2 : Int) ^ (n - 1)) ≤ x) && decide (x ≤ (2 : Int) ^ (n - 1) - 1)

/-- The words of a value of `k` words, word 0 first (R7). -/
def toWords : Nat → Nat → List Word
  | 0, _ => []
  | k + 1, v => BitVec.ofNat 20 v :: toWords k (v >>> 20)

/-- The value of a list of words, word 0 first (R7). -/
def ofWords : List Word → Nat
  | [] => 0
  | w :: ws => w.toNat + ofWords ws * 2 ^ 20

/-- The bits of a value, bit 0 first. -/
def bitsOf : Nat → Nat → List Bool
  | 0, _ => []
  | k + 1, v => (v % 2 == 1) :: bitsOf k (v / 2)

/-- A number from bits, bit 0 first. -/
def ofBits : List Bool → Nat
  | [] => 0
  | b :: bs => b.toNat + 2 * ofBits bs

/-- A sparse map: (address, value) pairs. -/
abbrev Sparse (α : Type) := List (Nat × α)

/-- The listed value at an address. -/
def Sparse.find {α : Type} : Sparse α → Nat → Option α
  | [], _ => none
  | (b, v) :: l, a => if a = b then some v else Sparse.find l a

/-- The map with an address unlisted. -/
def Sparse.erase {α : Type} : Sparse α → Nat → Sparse α
  | [], _ => []
  | (b, v) :: l, a => if a = b then Sparse.erase l a else (b, v) :: Sparse.erase l a

/-- The map with an address listed with a value. -/
def Sparse.insert {α : Type} : Sparse α → Nat → α → Sparse α
  | [], a, x => [(a, x)]
  | (b, v) :: l, a, x =>
    if a = b then (a, x) :: l else if a < b then (a, x) :: (b, v) :: l else (b, v) :: Sparse.insert l a x

/-- The map with no address of [lo, hi) listed. -/
def Sparse.clear {α : Type} (l : Sparse α) (lo hi : Nat) : Sparse α :=
  l.filter fun e => e.1 < lo || hi ≤ e.1

/-- Addresses rise strictly, from above `lo`. -/
def Sparse.rising {α : Type} : Option Nat → Sparse α → Bool
  | _, [] => true
  | none, (b, _) :: l => Sparse.rising (some b) l
  | some lo, (b, _) :: l => decide (lo < b) && Sparse.rising (some b) l

/-- The canonical form, for what an unlisted address reads as (`d`). -/
def Sparse.wf {α : Type} [DecidableEq α] (d : Nat → Option α) (l : Sparse α) : Bool :=
  Sparse.rising none l && l.all fun e => !decide (d e.1 = some e.2)

/-- A write that keeps the canonical form. -/
def Sparse.write {α : Type} [DecidableEq α] (d : Nat → Option α) (l : Sparse α) (a : Nat) (x : α) : Sparse α :=
  if d a = some x then Sparse.erase l a else Sparse.insert l a x

/-- A memory (R35, R472): its listed words, and what an unlisted word reads as: `some v`, or none where the contents
are lost and the spec gives no value. -/
structure Memory (n : Nat) where
  base  : Option (BitVec n)
  cells : Sparse (BitVec n)
  deriving DecidableEq, Repr

/-- The word at an address, if the spec gives it a value. -/
def Memory.read? {n : Nat} (m : Memory n) (a : Nat) : Option (BitVec n) :=
  match Sparse.find m.cells a with
  | some v => some v
  | none => m.base

/-- A store of one word. -/
def Memory.write {n : Nat} (m : Memory n) (a : Nat) (v : BitVec n) : Memory n :=
  { m with cells := Sparse.write (fun _ => m.base) m.cells a v }

/-- The stores of consecutive words from an address on. -/
def Memory.writes {n : Nat} (m : Memory n) (a : Nat) : List (BitVec n) → Memory n
  | [] => m
  | v :: vs => Memory.writes (m.write a v) (a + 1) vs

/-- The canonical form of a memory. -/
def Memory.wf {n : Nat} (m : Memory n) : Bool := Sparse.wf (fun _ => m.base) m.cells

/-- A memory whose contents are lost (R472). -/
def Memory.lost {n : Nat} : Memory n := { base := none, cells := [] }

/-- A memory of zeros. -/
def Memory.zero {n : Nat} : Memory n := { base := some 0, cells := [] }

end Sys2Proof.Machine
end

