-- ==== Sys2Proof/Machine/Arith.lean ====
section
/-! DEFINITION. Exact arithmetic: rounding (R46), the time formats (R42 to R44) and the conversions between nut values
and tunings (R46 to R48), NTP and PTP fields (R62, R63). -/

namespace Sys2Proof.Machine

/-- round_haz of num / den: the nearest integer, ties away from zero (R46). `den` is not 0. -/
def roundHaz (num den : Int) : Int :=
  let n := num * den.sign
  let d := den.natAbs
  if 0 ≤ n then ((2 * n.natAbs + d) / (2 * d) : Nat) else -(((2 * n.natAbs + d) / (2 * d) : Nat) : Int)

/-- The whole part of a full time's seconds field (R42). -/
def ftSec (v : FullTime) : Nat := v.toNat >>> 52
/-- The ns field of a full time (R42). -/
def ftNs (v : FullTime) : Nat := (v.toNat >>> 22) % 2 ^ 30
/-- The fraction field of a full time (R42). -/
def ftFrac (v : FullTime) : Nat := v.toNat % 2 ^ 22

/-- One second in units of 2⁻²² ns. -/
def secUnits : Int := 1000000000 * 4194304

/-- The ns and fraction of a full time in units of 2⁻²² ns (R42). -/
def ftSub (v : FullTime) : Int := (ftNs v : Int) * 4194304 + (ftFrac v : Int)

/-- A full time as a count of 2⁻²² ns, its seconds unsigned (R42). -/
def ftUnits (v : FullTime) : Int := (ftSec v : Int) * secUnits + ftSub v

/-- A count read as a signed 48-bit seconds difference (R48). -/
def signed48 (x : Int) : Int := (BitVec.ofInt 48 x).toInt

/-- A full time from its fields (R42). -/
def ftMake (sec : Int) (ns frac : Nat) : FullTime :=
  BitVec.ofNat 100 (((sec % (2 : Int) ^ 48).toNat <<< 52) + (ns <<< 22) + frac)

/-- The full time of a count of 2⁻²² ns: carry into ns and seconds, seconds modulo 2⁴⁸ (R46). -/
def ftOfUnits (u : Int) : FullTime :=
  let r := (u % secUnits).toNat
  ftMake (u / secUnits) (r / 4194304) (r % 4194304)

/-- The sum of full times, modulo 2⁴⁸ s (R46, R47). -/
def ftAdd (a b : FullTime) : FullTime := ftOfUnits (ftUnits a + ftUnits b)

/-- The signed difference a − b in 2⁻²² ns: seconds modulo 2⁴⁸ nearest zero, the rest exact (R48). -/
def ftDiff (a b : FullTime) : Int :=
  signed48 ((ftSec a : Int) - (ftSec b : Int)) * secUnits + (ftSub a - ftSub b)

/-- The denominator of a rate: 10¹⁴ (R11, R46). -/
def rateDen : Int := 100000000000000

/-- What a conversion uses of a tuning and of T0: A_n and A_v, r, and for a child of T0 its O, A_c and r_c. -/
structure Anchor where
  nut   : Nut
  val   : FullTime
  rate  : Rate
  off   : FullTime
  cnut  : Nut
  crate : Rate
  deriving DecidableEq, Repr

/-- The reading at a nut value (R46, R47; a nut-parented tuning has O = 0 and r_c = 0). -/
def readAnchor (a : Anchor) (n : Nut) : FullTime :=
  let d0 := (n - a.nut).toInt
  let dc := (n - a.cnut).toInt
  let q := roundHaz (d0 * 64 * (rateDen + a.rate.toInt) + dc * 64 * a.crate.toInt) rateDen
  ftOfUnits (ftUnits a.val + ftUnits a.off + q)

/-- The nut value of a reading (R48). -/
def nutOfReading (a : Anchor) (v : FullTime) : Nut :=
  let x := signed48 ((ftSec v : Int) - (ftSec a.val : Int) - (ftSec a.off : Int)) * secUnits +
    (ftSub v - ftSub a.val - ftSub a.off)
  let k := (a.nut - a.cnut).toInt
  let d0 := roundHaz (x * rateDen - k * 64 * a.crate.toInt) (64 * (rateDen + a.rate.toInt + a.crate.toInt))
  a.nut + BitVec.ofInt 80 d0

/-- The NTP seconds, fraction and era of a UTC reading (R62). -/
def ntpOf (v : FullTime) : Nat × Nat × Int :=
  let t0 := (BitVec.ofNat 48 (ftSec v)).toInt + 2208988800
  let frac := roundHaz (ftSub v * (2 : Int) ^ 32) secUnits
  let t := if frac = (2 : Int) ^ 32 then t0 + 1 else t0
  let f := if frac = (2 : Int) ^ 32 then 0 else frac
  ((t % (2 : Int) ^ 32).toNat, f.toNat, t / (2 : Int) ^ 32)

/-- The PTP seconds, nanoseconds and sub-nanosecond part of a reading (R63). -/
def ptpOf (v : FullTime) : Nat × Nat × Nat :=
  let part := (roundHaz (ftFrac v) 64).toNat
  if part = 65536 then
    if ftNs v + 1 = 1000000000 then ((ftSec v + 1) % 2 ^ 48, 0, 0) else (ftSec v, ftNs v + 1, 0)
  else (ftSec v, ftNs v, part)

/-- A short stamp of a nut value: bits [47:8] (R44). -/
def shortStamp (n : Nut) : BitVec 40 := BitVec.ofNat 40 (n.toNat >>> 8)

/-- A short stamp extended against a reference nut value (R44). -/
def extendStamp (st : BitVec 40) (ref : Nut) : Nut :=
  let n := ref + BitVec.ofInt 80 ((st - shortStamp ref).toInt * 256)
  n &&& ~~~(255 : Nut)

/-- One tick of the nut (R9). -/
def tickUnits : Nut := 163840

/-- The first tick at or after a nut value, as an unsigned number (R137): that of a value past the last tick below 2⁸⁰ lies beyond every
nut value. -/
def tickUp (x : Nut) : Nat := (x.toNat + 163839) / 163840 * 163840

/-- The tick at or before a nut value (R154). -/
def tickDown (x : Nut) : Nut := BitVec.ofNat 80 (x.toNat / 163840 * 163840)

/-- A count of milliseconds in nut units (R9). -/
def msNut (k : Nat) : Nut := BitVec.ofNat 80 (k * 65536000000)
/-- A count of microseconds in nut units. -/
def usNut (k : Nat) : Nut := BitVec.ofNat 80 (k * 65536000)
/-- A count of seconds in nut units. -/
def secNut (k : Nat) : Nut := BitVec.ofNat 80 (k * 65536000000000)
/-- A count of nanoseconds in nut units. -/
def nsNut (k : Nat) : Nut := BitVec.ofNat 80 (k * 65536)

/-- Whether the nut `n` has reached `x`, by their signed difference: the nut wraps after 2⁶⁴ ns (R9). -/
def reached (n x : Nut) : Bool := decide (0 ≤ (n - x).toInt)

end Sys2Proof.Machine
end

