-- ==== Sys2Proof/Machine/Float60.lean ====
section
/-! DEFINITION. float60 (R349 to R351): its values, exact operations rounded to nearest with ties to even, comparison and
the conversions from and to integers. -/

namespace Sys2Proof.Machine

/-- The value of a float60 word triple (R349): NaN, an infinity, or ± m × 2^e. -/
inductive FVal where
  | nan
  | inf (neg : Bool)
  | fin (neg : Bool) (m : Nat) (e : Int)
  deriving DecidableEq, Repr

/-- The value of a float60 (R349). -/
def f60Val (w : W60) : FVal :=
  let s := w.getLsbD 59
  let e : Nat := w.toNat / 2 ^ 48 % 2048
  let m : Nat := w.toNat % 2 ^ 48
  if e = 0 then .fin s 0 0
  else if e = 2047 then (if m = 0 then .inf s else .nan)
  else .fin s (2 ^ 48 + m) ((e : Int) - 1071)

/-- A float60 of its fields (R349). -/
def f60Pack (neg : Bool) (e m : Nat) : W60 := BitVec.ofNat 60 (neg.toNat * 2 ^ 59 + e * 2 ^ 48 + m)

/-- A zero of a sign. -/
def f60Zero (neg : Bool) : W60 := f60Pack neg 0 0
/-- An infinity of a sign. -/
def f60Inf (neg : Bool) : W60 := f60Pack neg 2047 0
/-- The canonical NaN (R349). -/
def f60Nan : W60 := f60Pack false 2047 (2 ^ 47)

/-- ± num / den × 2^e, rounded to nearest with ties to even; a zero of its sign below 2⁻¹⁰²², an infinity beyond the
range (R349). `den` is not 0. -/
def f60Round (neg : Bool) (num den : Nat) (e : Int) : W60 :=
  if num = 0 then f60Zero neg
  else
    let a := 60 + den.log2
    let n := num <<< a
    let q := n / den
    let l := q.log2
    let m := q >>> (l - 48)
    let r := q % 2 ^ (l - 48)
    let half := 2 ^ (l - 49)
    let up := decide (half < r) || (r == half && (n % den != 0 || m % 2 == 1))
    let m1 := if up then m + 1 else m
    let m2 := if m1 = 2 ^ 49 then 2 ^ 48 else m1
    let ex := (l : Int) + e - (a : Int) + 1023 + (if m1 = 2 ^ 49 then 1 else 0)
    if ex < 1 then f60Zero neg
    else if 2046 < ex then f60Inf neg
    else f60Pack neg ex.toNat (m2 - 2 ^ 48)

/-- A signed exact number n × 2^e as a float60; an exact 0 is +0. -/
def f60OfExact (n : Int) (e : Int) : W60 := f60Round (decide (n < 0)) n.natAbs 1 e

/-- What a float60 operation gives: a value, a NaN from a NaN operand, whose sign and mantissa the spec leaves open,
or the zero of an exact cancellation, whose sign it leaves open. -/
inductive FRes where
  | val (w : W60)
  | anyNan
  | anyZero
  deriving DecidableEq, Repr

/-- n₁ × 2^e₁ + n₂ × 2^e₂ with its exponent. -/
def exactAdd (n1 : Int) (e1 : Int) (n2 : Int) (e2 : Int) : Int × Int :=
  let e := min e1 e2
  (n1 * (2 : Int) ^ (e1 - e).toNat + n2 * (2 : Int) ^ (e2 - e).toNat, e)

/-- A magnitude with its sign. -/
def signedNat (neg : Bool) (m : Nat) : Int := if neg then -(m : Int) else (m : Int)

/-- A + B on values (R349). -/
def fAddVal (x y : FVal) : FRes :=
  match x, y with
  | .nan, _ => .anyNan
  | _, .nan => .anyNan
  | .inf s, .inf t => if s = t then .val (f60Inf s) else .val f60Nan
  | .inf s, .fin _ _ _ => .val (f60Inf s)
  | .fin _ _ _, .inf t => .val (f60Inf t)
  | .fin s m e, .fin t k f =>
    if m = 0 && k = 0 && s == t then .val (f60Zero s)
    else
      let r := exactAdd (signedNat s m) e (signedNat t k) f
      if r.1 = 0 then .anyZero else .val (f60OfExact r.1 r.2)

/-- A value with its sign inverted. -/
def FVal.neg : FVal → FVal
  | .nan => .nan
  | .inf s => .inf (!s)
  | .fin s m e => .fin (!s) m e

/-- A × B on values (R349). -/
def fMulVal (x y : FVal) : FRes :=
  match x, y with
  | .nan, _ => .anyNan
  | _, .nan => .anyNan
  | .inf s, .inf t => .val (f60Inf (s != t))
  | .inf s, .fin t k _ => if k = 0 then .val f60Nan else .val (f60Inf (s != t))
  | .fin s m _, .inf t => if m = 0 then .val f60Nan else .val (f60Inf (s != t))
  | .fin s m e, .fin t k f => .val (f60Round (s != t) (m * k) 1 (e + f))

/-- A / B on values (R349). -/
def fDivVal (x y : FVal) : FRes :=
  match x, y with
  | .nan, _ => .anyNan
  | _, .nan => .anyNan
  | .inf _, .inf _ => .val f60Nan
  | .inf s, .fin t _ _ => .val (f60Inf (s != t))
  | .fin s _ _, .inf t => .val (f60Zero (s != t))
  | .fin s m e, .fin t k f =>
    if k = 0 then (if m = 0 then .val f60Nan else .val (f60Inf (s != t)))
    else .val (f60Round (s != t) m k (e - f))

/-- The whole part of a square root, bit by bit from 2^(k − 1) down. -/
def sqrtBits (n : Nat) : Nat → Nat → Nat
  | 0, r => r
  | k + 1, r => if (r + 2 ^ k) * (r + 2 ^ k) ≤ n then sqrtBits n k (r + 2 ^ k) else sqrtBits n k r

/-- √A on values (R349): −0 gives −0. -/
def fSqrtVal : FVal → FRes
  | .nan => .anyNan
  | .inf s => if s then .val f60Nan else .val (f60Inf false)
  | .fin s m e =>
    if m = 0 then .val (f60Zero s)
    else if s then .val f60Nan
    else
      let e0 := e - 80
      let n := if e0 % 2 = 0 then m <<< 80 else m <<< 81
      let e1 := if e0 % 2 = 0 then e0 else e0 - 1
      let r := sqrtBits n 66 0
      .val (f60Round false (2 * r + (if r * r = n then 0 else 1)) 1 (e1 / 2 - 1))

/-- FADD, FSUB, FMUL, FDIV and FSQRT of float60 words. -/
def fAdd (a b : W60) : FRes := fAddVal (f60Val a) (f60Val b)
def fSub (a b : W60) : FRes := fAddVal (f60Val a) (f60Val b).neg
def fMul (a b : W60) : FRes := fMulVal (f60Val a) (f60Val b)
def fDiv (a b : W60) : FRes := fDivVal (f60Val a) (f60Val b)
def fSqrt (a : W60) : FRes := fSqrtVal (f60Val a)

/-- A × 2^k (R349). -/
def fScale (a : W60) (k : Int) : FRes :=
  match f60Val a with
  | .nan => .anyNan
  | .inf s => .val (f60Inf s)
  | .fin s m e => .val (f60Round s m 1 (e + k))

/-- A word result where the spec's open cases do not arise: the canonical NaN and +0 stand for them. -/
def FRes.plain : FRes → W60
  | .val w => w
  | .anyNan => f60Nan
  | .anyZero => f60Zero false

/-- Whether a float60 is finite. -/
def f60Finite (w : W60) : Bool :=
  match f60Val w with
  | .fin _ _ _ => true
  | _ => false

/-- Whether a float60 is a NaN. -/
def f60IsNan (w : W60) : Bool := f60Val w == .nan

/-- Whether a float60 is ±0. -/
def f60IsZero (w : W60) : Bool :=
  match f60Val w with
  | .fin _ m _ => m == 0
  | _ => false

/-- V of a float60 result (R350): an infinity from finite operands, which a division by zero gives too, or NaN. -/
def f60V (finiteArgs : Bool) (w : W60) : Bool :=
  match f60Val w with
  | .nan => true
  | .inf _ => finiteArgs
  | .fin _ _ _ => false

/-- The sign of A − B on values that are no NaN: −1, 0 or 1 (R350; +0 and −0 are equal). -/
def f60Order (a b : W60) : Int :=
  match f60Val a, f60Val b with
  | .inf s, .inf t => if s = t then 0 else if s then -1 else 1
  | .inf s, _ => if s then -1 else 1
  | _, .inf t => if t then 1 else -1
  | .fin s m e, .fin t k f => (exactAdd (signedNat s m) e (-(signedNat t k)) f).1.sign
  | _, _ => 0

/-- num / den (den > 0) rounded by a mode of R351: nearest even, toward zero, nearest away from zero, toward −∞. -/
def roundMode (mode : Nat) (neg : Bool) (num den : Nat) : Int :=
  let q := num / den
  let r := num % den
  let up :=
    match mode with
    | 0 => decide (den < 2 * r) || (2 * r == den && q % 2 == 1)
    | 1 => false
    | 2 => decide (den ≤ 2 * r)
    | _ => neg && r != 0
  signedNat neg (if up then q + 1 else q)

/-- The integer of a finite float60 (R351). -/
def f60ToInt (mode : Nat) : FVal → Int
  | .fin s m e =>
    if 0 ≤ e then signedNat s (m <<< e.toNat)
    else roundMode mode s m (2 ^ (-e).toNat)
  | _ => 0

/-- FCVTF: the integer of `w` words, and V (R351): a value beyond the range saturates at its limit; NaN gives 0. -/
def f60ToWords (words mode : Nat) (signed : Bool) (a : W60) : Nat × Bool :=
  let n := 20 * words
  let lo : Int := if signed then -((2 : Int) ^ (n - 1)) else 0
  let hi : Int := if signed then (2 : Int) ^ (n - 1) - 1 else (2 : Int) ^ n - 1
  match f60Val a with
  | .nan => (0, true)
  | .inf s => (((if s then lo else hi) % (2 : Int) ^ n).toNat, true)
  | .fin s m e =>
    let x := f60ToInt mode (.fin s m e)
    if x < lo then ((lo % (2 : Int) ^ n).toNat, true)
    else if hi < x then ((hi % (2 : Int) ^ n).toNat, true)
    else ((x % (2 : Int) ^ n).toNat, false)

/-- A rational num / den as the nearest float60. -/
def f60OfRat (num : Int) (den : Nat) : W60 := f60Round (decide (num < 0)) num.natAbs den 0

/-- A finite float60 as an integer, ties away from zero. -/
def f60Near (w : W60) : Int := f60ToInt 2 (f60Val w)

/-- π to the nearest float60: 0x40092_1FB5_4442_D18 to 49 bits of significand (R189, R191). -/
def f60TwoPi : W60 := f60OfRat 628318530717958647692528676655900576839 100000000000000000000000000000000000000

end Sys2Proof.Machine
end

