-- ==== Sys2Proof/Config.lean ====
section
/-! DEFINITION. What one part fixes and the spec does not state: the factory values of a part, and the free
values. Every constant here is opaque: no proof can see a value of it. -/

namespace Sys2Proof

/-- The free values: a value of `w` bits that the spec leaves open, the `n`-th that a run meets (R472 "arbitrary
value", R558 "may or may not", R367, R369). Nothing constrains it. -/
opaque Config.freeBits (w n : Nat) : BitVec w

/-- The die identification of the part (R497, "Factory"). -/
opaque Config.dieId : BitVec 80

/-- INS0 of a line: the trimmed insertion delay at 60 °C, in 2⁻¹⁶ ns (R79, "Factory"). -/
opaque Config.ins0 : LineId → Int

/-- INS_TC of a line: its temperature coefficient (R79, "Factory"). -/
opaque Config.insTc : LineId → Int

/-- D_rx of a fret by port and mode row, 2⁻¹⁶ ns (R86, R89, "Factory"). -/
opaque Config.dRx : PortId → Nat → Word

/-- D_tx of a fret by port and mode row, 2⁻¹⁶ ns (R87, R89, "Factory"). -/
opaque Config.dTx : PortId → Nat → Word

/-- The trimmed delay of the house channel's loopback tap from output OUTo, 2⁻¹⁶ ns (R127, "Factory"). -/
opaque Config.hc0Delay : OutId → Int

/-- The fixed delay of the harp's marker crossing, 2⁻¹⁶ ns (R222). -/
opaque Config.markerDelay : Nut

/-- CS100, the secondary code of E5a-Q, by PRN (R237). The spec names it and does not list its chips. -/
opaque Config.secondary (prn : Nat) : List Bool

/-- A carrier loop's Doppler and rate of it after a dump (R234), both in 2⁻¹⁶ Hz: from what its discriminator is an angle of, (y, x)
over four quadrants or over two, its order, its bandwidth as HARP_SIG_LOOP holds it and the dump's length in ms, the Doppler and
the rate before. R234 names discriminator, order and bandwidth and states no filter coefficients. -/
opaque Config.carrierLoop (order bw ms : Nat) (whole : Bool) (y x dopp rate : Int) : Int × Int

/-- What a first-order DLL moves the code by, later where positive, in 2⁻³² sample (R234): from |E|² and |L|², its bandwidth in
0.02 Hz and the dump's length in ms. R234 states no filter coefficient. -/
opaque Config.codeLoop (sig bw ms e l : Nat) : Int

/-- C, a signal's correlation shape at an offset in 1/480 chip, held in ROM (R242). Its values are not listed. -/
opaque Config.corrShape (sig : Nat) (x : Int) : Int

end Sys2Proof
end

