-- ==== Sys2Proof/Machine/RegMap.lean ====
section
/-! DEFINITION. The register map of BAR0 (R508): the address of every register, and for each block
the table of its registers as its chapter lists them: offset, instances and their stride, words, the bits
the host writes (rw), the bits a host write of 1 clears (rc1), and the cold-reset value. A bit in neither
mask reads as the hardware sets it (rh) or is reserved (R13 to R16). -/

namespace Sys2Proof.Machine

/-- One register of a register table (R13, R506). -/
structure RegRow where
  off    : Nat
  count  : Nat
  stride : Nat
  words  : Nat
  /-- The rw bits of every word but the highest. -/
  rw     : Nat
  /-- The rw bits of the highest word. -/
  top    : Nat
  rc1    : Nat
  /-- The cold-reset value, word 0 lowest (R7). -/
  rst    : Nat
  deriving DecidableEq, Repr

/-- The register block of tuning t (R58). -/
abbrev Reg.tunBase (t : Nat) : Nat := 0x4000 + 0x100 * t
/-- The register block of port p, its fret at + 0x1000 (R107, R298, R508). -/
abbrev Reg.portBase (p : Nat) : Nat := 0x40000 + 0x2000 * p
/-- The register block of pick p (R129). -/
abbrev Reg.pickBase (p : Nat) : Nat := 0x6000 + 0x200 * p
/-- The register block of edge pluck o (R160). -/
abbrev Reg.edgeBase (o : Nat) : Nat := 0x5100 + 0x80 * o
/-- The register block of reference slot n (R183). -/
abbrev Reg.slotBase (n : Nat) : Nat := 0x8400 + 0x80 * n
/-- The register block of FMUu (R184). -/
abbrev Reg.fmuBase (u : Nat) : Nat := 0x8C00 + 0x100 * u
/-- The register block of FOUTf (R215). -/
abbrev Reg.foutBase (f : Nat) : Nat := 0x8300 + 0x20 * f
/-- The parameters of signal g (R246). -/
abbrev Reg.sigBase (g : Nat) : Nat := 0x10200 + 0x10 * g
/-- The register block of channel h (R247). -/
abbrev Reg.chBase (h : Nat) : Nat := 0x11000 + 0x20 * h
/-- The register block of course c (R508). -/
abbrev Reg.crsBase (c : Nat) : Nat := 0x80000 + 0x40000 * c
/-- The register block of general pluck g, pluck g mod 64 of course g div 64 (R159). -/
abbrev Reg.plkBase (g : Nat) : Nat := Reg.crsBase (g / 64) + 0x4000 + 0x80 * (g % 64)
/-- Steering entry e of course c (R299). -/
abbrev Reg.steerBase (c e : Nat) : Nat := Reg.crsBase c + 0x8000 + 0x40 * e
/-- The register block of string s (R339). -/
abbrev Reg.strBase (s : Nat) : Nat := Reg.crsBase (s / 4) + 0x10000 + 0x8000 * (s % 4)
/-- Tag area n (R498). The model keeps the tag areas beside course C2's block, whose host addresses they share
(R508, R509); the host reaches them at this address less 0x100_0000. -/
abbrev Reg.tag (n : Nat) : Nat := 0x1100000 + 0x10 * n
/-- IRQ_GRPn, R444. -/
abbrev Reg.irqGrp (n : Nat) : Nat := 0x1000 + 8 * n
/-- IRQ_GRPn_MASK, R444. -/
abbrev Reg.irqGrpMask (n : Nat) : Nat := 0x1004 + 8 * n

/-- NUT_NOW0–NUT_NOW3, R41. -/
abbrev Reg.nutNow : Nat := 0x400
/-- NUT_CHK_CRS, R41. -/
abbrev Reg.nutChkCrs : Nat := 0x410
/-- NUT_CHK_FRETA, R41. -/
abbrev Reg.nutChkFreta : Nat := 0x414
/-- NUT_CHK_FRETB, R41. -/
abbrev Reg.nutChkFretb : Nat := 0x418
/-- NUT_CHK_CNT, R41. -/
abbrev Reg.nutChkCnt : Nat := 0x41c
/-- TUN_CTRL, R58. -/
abbrev Reg.tunCtrl (t : Nat) : Nat := Reg.tunBase t + 0x0
/-- TUN_STATUS, R58. -/
abbrev Reg.tunStatus (t : Nat) : Nat := Reg.tunBase t + 0x4
/-- TUN_COMMIT, R58. -/
abbrev Reg.tunCommit (t : Nat) : Nat := Reg.tunBase t + 0x8
/-- TUN_NEW_NUT0–3, R58. -/
abbrev Reg.tunNewNut (t : Nat) : Nat := Reg.tunBase t + 0x10
/-- TUN_NEW_VAL0–4, R58. -/
abbrev Reg.tunNewVal (t : Nat) : Nat := Reg.tunBase t + 0x20
/-- TUN_NEW_RATE0–1, R58. -/
abbrev Reg.tunNewRate (t : Nat) : Nat := Reg.tunBase t + 0x34
/-- TUN_ANC_NUT0–3, R58. -/
abbrev Reg.tunAncNut (t : Nat) : Nat := Reg.tunBase t + 0x40
/-- TUN_ANC_VAL0–4, R58. -/
abbrev Reg.tunAncVal (t : Nat) : Nat := Reg.tunBase t + 0x50
/-- TUN_ANC_RATE0–1, R58. -/
abbrev Reg.tunAncRate (t : Nat) : Nat := Reg.tunBase t + 0x64
/-- TUN_READ0–4, R58. -/
abbrev Reg.tunRead (t : Nat) : Nat := Reg.tunBase t + 0x70
/-- TUN_READ_NUT0–3, R58. -/
abbrev Reg.tunReadNut (t : Nat) : Nat := Reg.tunBase t + 0x84
/-- TUN_LEAP_CTRL, R58. -/
abbrev Reg.tunLeapCtrl (t : Nat) : Nat := Reg.tunBase t + 0xc0
/-- TUN_LEAP_AT0–2, R58. -/
abbrev Reg.tunLeapAt (t : Nat) : Nat := Reg.tunBase t + 0xc4
/-- TUN_SMEAR_LEN, R58. -/
abbrev Reg.tunSmearLen (t : Nat) : Nat := Reg.tunBase t + 0xd0
/-- NUT_TDC_CTRL, R83. -/
abbrev Reg.nutTdcCtrl : Nat := 0x500
/-- NUT_TDC_STAT, R83. -/
abbrev Reg.nutTdcStat : Nat := 0x504
/-- NUT_TDC_LS0–65, R83. -/
abbrev Reg.nutTdcLs (L : Nat) : Nat := 0x600 + 0x4 * L
/-- NUT_TDC_DEAD0–65, R83. -/
abbrev Reg.nutTdcDead (L : Nat) : Nat := 0x800 + 0x4 * L
/-- NUT_TDC_OVR0–65, R83. -/
abbrev Reg.nutTdcOvr (L : Nat) : Nat := 0xa00 + 0x4 * L
/-- PWR_TEMP0–3, R83. -/
abbrev Reg.pwrTemp (n : Nat) : Nat := 0x2100 + 0x4 * n
/-- FRET_STAT, R107. -/
abbrev Reg.fretStat (p : Nat) : Nat := Reg.portBase p + 0x1000
/-- FRET_RXCNT, R107. -/
abbrev Reg.fretRxcnt (p : Nat) : Nat := Reg.portBase p + 0x1004
/-- FRET_TXCNT, R107. -/
abbrev Reg.fretTxcnt (p : Nat) : Nat := Reg.portBase p + 0x1008
/-- FRET_DRX, R107. -/
abbrev Reg.fretDrx (p : Nat) : Nat := Reg.portBase p + 0x100c
/-- FRET_DTX, R107. -/
abbrev Reg.fretDtx (p : Nat) : Nat := Reg.portBase p + 0x1010
/-- FRET_ADJ_RX, R107. -/
abbrev Reg.fretAdjRx (p : Nat) : Nat := Reg.portBase p + 0x1014
/-- FRET_ADJ_TX, R107. -/
abbrev Reg.fretAdjTx (p : Nat) : Nat := Reg.portBase p + 0x1018
/-- FRET_ASYM, R107. -/
abbrev Reg.fretAsym (p : Nat) : Nat := Reg.portBase p + 0x101c
/-- FRET_SPEC_CNT, R107. -/
abbrev Reg.fretSpecCnt (p : Nat) : Nat := Reg.portBase p + 0x1020
/-- FRET_NOTUN_CNT, R107. -/
abbrev Reg.fretNotunCnt (p : Nat) : Nat := Reg.portBase p + 0x1024
/-- FRET_ABORT_CNT, R107. -/
abbrev Reg.fretAbortCnt (p : Nat) : Nat := Reg.portBase p + 0x1028
/-- PICK_CTRL, R129. -/
abbrev Reg.pickCtrl (p : Nat) : Nat := Reg.pickBase p + 0x0
/-- PICK_STAT, R129. -/
abbrev Reg.pickStat (p : Nat) : Nat := Reg.pickBase p + 0x4
/-- PICK_IVL, R129. -/
abbrev Reg.pickIvl (p : Nat) : Nat := Reg.pickBase p + 0x8
/-- PICK_IVL_WIN, R129. -/
abbrev Reg.pickIvlWin (p : Nat) : Nat := Reg.pickBase p + 0xc
/-- PICK_GATE, R129. -/
abbrev Reg.pickGate (p : Nat) : Nat := Reg.pickBase p + 0x10
/-- PICK_GATE_LEN, R129. -/
abbrev Reg.pickGateLen (p : Nat) : Nat := Reg.pickBase p + 0x14
/-- PICK_FNOM0–1, R129. -/
abbrev Reg.pickFnom (p : Nat) : Nat := Reg.pickBase p + 0x18
/-- PICK_DRAIN, R129. -/
abbrev Reg.pickDrain (p : Nat) : Nat := Reg.pickBase p + 0x20
/-- PICK_DRAIN_BASE, R129. -/
abbrev Reg.pickDrainBase (p : Nat) : Nat := Reg.pickBase p + 0x24
/-- PICK_QDROP, R129. -/
abbrev Reg.pickQdrop (p : Nat) : Nat := Reg.pickBase p + 0x28
/-- PICK_IVL_UNUSED, R129. -/
abbrev Reg.pickIvlUnused (p : Nat) : Nat := Reg.pickBase p + 0x2c
/-- PICK_QPOP0–4, R129. -/
abbrev Reg.pickQpop (p : Nat) : Nat := Reg.pickBase p + 0x30
/-- PICK_RES_STAT, R129. -/
abbrev Reg.pickResStat (p : Nat) : Nat := Reg.pickBase p + 0x50
/-- PICK_RES_Y0–1, R129. -/
abbrev Reg.pickResY (p : Nat) : Nat := Reg.pickBase p + 0x54
/-- PICK_RES_FIRST0–3, R129. -/
abbrev Reg.pickResFirst (p : Nat) : Nat := Reg.pickBase p + 0x60
/-- PICK_ACC_N0–1, R129. -/
abbrev Reg.pickAccN (p : Nat) : Nat := Reg.pickBase p + 0x70
/-- PICK_ACC_SM0–3, R129. -/
abbrev Reg.pickAccSm (p : Nat) : Nat := Reg.pickBase p + 0x78
/-- PICK_ACC_SMM0–4, R129. -/
abbrev Reg.pickAccSmm (p : Nat) : Nat := Reg.pickBase p + 0x88
/-- PICK_ACC_SX0–4, R129. -/
abbrev Reg.pickAccSx (p : Nat) : Nat := Reg.pickBase p + 0x9c
/-- PICK_ACC_SMX0–5, R129. -/
abbrev Reg.pickAccSmx (p : Nat) : Nat := Reg.pickBase p + 0xb0
/-- PICK_HC0_CTRL, R130. -/
abbrev Reg.pickHc0Ctrl : Nat := 0x7000 + 0x0
/-- PICK_HC0_LAST0–3, R130. -/
abbrev Reg.pickHc0Last : Nat := 0x7000 + 0x8
/-- PICK_HC1_CHG0–3, R130. -/
abbrev Reg.pickHc1Chg (n : Nat) : Nat := 0x7000 + 0x20 + 0x4 * n
/-- PLK_CTRL, R159. -/
abbrev Reg.plkCtrl (g : Nat) : Nat := Reg.plkBase g + 0x0
/-- PLK_STAT, R159. -/
abbrev Reg.plkStat (g : Nat) : Nat := Reg.plkBase g + 0x4
/-- PLK_CMD, R159. -/
abbrev Reg.plkCmd (g : Nat) : Nat := Reg.plkBase g + 0x8
/-- PLK_DEST, R159. -/
abbrev Reg.plkDest (g : Nat) : Nat := Reg.plkBase g + 0xc
/-- PLK_TGT0–4, R159. -/
abbrev Reg.plkTgt (g : Nat) : Nat := Reg.plkBase g + 0x10
/-- PLK_PER0–2, R159. -/
abbrev Reg.plkPer (g : Nat) : Nat := Reg.plkBase g + 0x24
/-- PLK_ARG0–1, R159. -/
abbrev Reg.plkArg (g : Nat) : Nat := Reg.plkBase g + 0x30
/-- PLK_NTGT0–3, R159. -/
abbrev Reg.plkNtgt (g : Nat) : Nat := Reg.plkBase g + 0x40
/-- PLK_LAST0–3, R159. -/
abbrev Reg.plkLast (g : Nat) : Nat := Reg.plkBase g + 0x50
/-- PLK_LATE, R159. -/
abbrev Reg.plkLate (g : Nat) : Nat := Reg.plkBase g + 0x60
/-- PLK_MISSCNT, R159. -/
abbrev Reg.plkMisscnt (g : Nat) : Nat := Reg.plkBase g + 0x64
/-- PLK_EDGE_CTRL, R160. -/
abbrev Reg.plkEdgeCtrl (o : Nat) : Nat := Reg.edgeBase o + 0x0
/-- PLK_EDGE_STAT, R160. -/
abbrev Reg.plkEdgeStat (o : Nat) : Nat := Reg.edgeBase o + 0x4
/-- PLK_EDGE_CMD, R160. -/
abbrev Reg.plkEdgeCmd (o : Nat) : Nat := Reg.edgeBase o + 0x8
/-- PLK_EDGE_TGT0–4, R160. -/
abbrev Reg.plkEdgeTgt (o : Nat) : Nat := Reg.edgeBase o + 0x10
/-- PLK_EDGE_PER0–2, R160. -/
abbrev Reg.plkEdgePer (o : Nat) : Nat := Reg.edgeBase o + 0x24
/-- PLK_EDGE_WIDTH0–1, R160. -/
abbrev Reg.plkEdgeWidth (o : Nat) : Nat := Reg.edgeBase o + 0x30
/-- PLK_EDGE_CAL, R160. -/
abbrev Reg.plkEdgeCal (o : Nat) : Nat := Reg.edgeBase o + 0x38
/-- PLK_EDGE_CALERR, R160. -/
abbrev Reg.plkEdgeCalerr (o : Nat) : Nat := Reg.edgeBase o + 0x3c
/-- PLK_EDGE_NTGT0–3, R160. -/
abbrev Reg.plkEdgeNtgt (o : Nat) : Nat := Reg.edgeBase o + 0x40
/-- PLK_EDGE_MISSCNT, R160. -/
abbrev Reg.plkEdgeMisscnt (o : Nat) : Nat := Reg.edgeBase o + 0x50
/-- PLK_GSTAT, R160. -/
abbrev Reg.plkGstat : Nat := 0x5000 + 0x0
/-- PLK_RECONV_MAX, R160. -/
abbrev Reg.plkReconvMax : Nat := 0x5000 + 0x4
/-- BRG_SEL_CTRL, R182. -/
abbrev Reg.brgSelCtrl : Nat := 0x8000 + 0x0
/-- BRG_SEL_STAT, R182. -/
abbrev Reg.brgSelStat : Nat := 0x8000 + 0x4
/-- BRG_HOLDOFF, R182. -/
abbrev Reg.brgHoldoff : Nat := 0x8000 + 0x8
/-- BRG_WTR, R182. -/
abbrev Reg.brgWtr : Nat := 0x8000 + 0xc
/-- BRG_QUAL_TIME, R182. -/
abbrev Reg.brgQualTime : Nat := 0x8000 + 0x10
/-- BRG_SW_SETTLE, R182. -/
abbrev Reg.brgSwSettle : Nat := 0x8000 + 0x14
/-- BRG_VOTE_WIN, R182. -/
abbrev Reg.brgVoteWin : Nat := 0x8000 + 0x18
/-- BRG_VOTE_ALARM, R182. -/
abbrev Reg.brgVoteAlarm : Nat := 0x8000 + 0x1c
/-- BRG_VOTE_DISQ, R182. -/
abbrev Reg.brgVoteDisq : Nat := 0x8000 + 0x20
/-- BRG_VOTE_STAT, R182. -/
abbrev Reg.brgVoteStat : Nat := 0x8000 + 0x24
/-- BRG_SW_CNT, R182. -/
abbrev Reg.brgSwCnt : Nat := 0x8000 + 0x28
/-- BRG_SW_LAST, R182. -/
abbrev Reg.brgSwLast : Nat := 0x8000 + 0x2c
/-- BRG_CAUSE, R182. -/
abbrev Reg.brgCause : Nat := 0x8000 + 0x40
/-- BRG_CAUSE_MASK, R182. -/
abbrev Reg.brgCauseMask : Nat := 0x8000 + 0x44
/-- BRG_RS_CFG, R183. -/
abbrev Reg.brgRsCfg (n : Nat) : Nat := Reg.slotBase n + 0x0
/-- BRG_RS_STAT, R183. -/
abbrev Reg.brgRsStat (n : Nat) : Nat := Reg.slotBase n + 0x4
/-- BRG_RS_CMD, R183. -/
abbrev Reg.brgRsCmd (n : Nat) : Nat := Reg.slotBase n + 0x8
/-- BRG_RS_TMO, R183. -/
abbrev Reg.brgRsTmo (n : Nat) : Nat := Reg.slotBase n + 0xc
/-- BRG_RS_FLIM, R183. -/
abbrev Reg.brgRsFlim (n : Nat) : Nat := Reg.slotBase n + 0x10
/-- BRG_RS_PLIM, R183. -/
abbrev Reg.brgRsPlim (n : Nat) : Nat := Reg.slotBase n + 0x14
/-- BRG_RS_ROUTE, R183. -/
abbrev Reg.brgRsRoute (n : Nat) : Nat := Reg.slotBase n + 0x18
/-- BRG_RS_XLIM, R183. -/
abbrev Reg.brgRsXlim (n : Nat) : Nat := Reg.slotBase n + 0x1c
/-- BRG_RS_PERIOD, R183. -/
abbrev Reg.brgRsPeriod (n : Nat) : Nat := Reg.slotBase n + 0x20
/-- BRG_RS_DELAY0–2, R183. -/
abbrev Reg.brgRsDelay (n : Nat) : Nat := Reg.slotBase n + 0x24
/-- BRG_RS_LASTD0–2, R183. -/
abbrev Reg.brgRsLastd (n : Nat) : Nat := Reg.slotBase n + 0x30
/-- BRG_RS_LASTNM0–3, R183. -/
abbrev Reg.brgRsLastnm (n : Nat) : Nat := Reg.slotBase n + 0x3c
/-- BRG_RS_FREQ0–1, R183. -/
abbrev Reg.brgRsFreq (n : Nat) : Nat := Reg.slotBase n + 0x4c
/-- BRG_RS_MPD0–1, R183. -/
abbrev Reg.brgRsMpd (n : Nat) : Nat := Reg.slotBase n + 0x54
/-- BRG_RS_XCHK0–2, R183. -/
abbrev Reg.brgRsXchk (n : Nat) : Nat := Reg.slotBase n + 0x5c
/-- BRG_RS_TIMER, R183. -/
abbrev Reg.brgRsTimer (n : Nat) : Nat := Reg.slotBase n + 0x68
/-- BRG_RS_DROPCNT, R183. -/
abbrev Reg.brgRsDropcnt (n : Nat) : Nat := Reg.slotBase n + 0x6c
/-- BRG_FMU_CTRL, R184. -/
abbrev Reg.brgFmuCtrl (u : Nat) : Nat := Reg.fmuBase u + 0x0
/-- BRG_FMU_STAT, R184. -/
abbrev Reg.brgFmuStat (u : Nat) : Nat := Reg.fmuBase u + 0x4
/-- BRG_LOOP_CTRL, R214. -/
abbrev Reg.brgLoopCtrl : Nat := 0x8000 + 0x100
/-- BRG_BW_TIME, R214. -/
abbrev Reg.brgBwTime : Nat := 0x8000 + 0x104
/-- BRG_BW_FREQ, R214. -/
abbrev Reg.brgBwFreq : Nat := 0x8000 + 0x108
/-- BRG_DAMP, R214. -/
abbrev Reg.brgDamp : Nat := 0x8000 + 0x10c
/-- BRG_SLEW, R214. -/
abbrev Reg.brgSlew : Nat := 0x8000 + 0x110
/-- BRG_STEP_THR, R214. -/
abbrev Reg.brgStepThr : Nat := 0x8000 + 0x114
/-- BRG_STEER0–1, R214. -/
abbrev Reg.brgSteer : Nat := 0x8000 + 0x118
/-- BRG_INTEG0–1, R214. -/
abbrev Reg.brgInteg : Nat := 0x8000 + 0x120
/-- BRG_PHI0–2, R214. -/
abbrev Reg.brgPhi : Nat := 0x8000 + 0x128
/-- BRG_FREE_RATE0–1, R214. -/
abbrev Reg.brgFreeRate : Nat := 0x8000 + 0x134
/-- BRG_LOOP_STAT, R214. -/
abbrev Reg.brgLoopStat : Nat := 0x8000 + 0x13c
/-- BRG_STEP_CMD, R214. -/
abbrev Reg.brgStepCmd : Nat := 0x8000 + 0x140
/-- BRG_STEP_VAL0–2, R214. -/
abbrev Reg.brgStepVal : Nat := 0x8000 + 0x144
/-- BRG_LCAUSE, R214. -/
abbrev Reg.brgLcause : Nat := 0x8000 + 0x150
/-- BRG_LCAUSE_MASK, R214. -/
abbrev Reg.brgLcauseMask : Nat := 0x8000 + 0x154
/-- BRG_HO_AVG, R214. -/
abbrev Reg.brgHoAvg : Nat := 0x8000 + 0x200
/-- BRG_HO_AGEWIN, R214. -/
abbrev Reg.brgHoAgewin : Nat := 0x8000 + 0x204
/-- BRG_OSC_URATE0–1, R214. -/
abbrev Reg.brgOscUrate : Nat := 0x8000 + 0x208
/-- BRG_OSC_UAGE, R214. -/
abbrev Reg.brgOscUage : Nat := 0x8000 + 0x210
/-- BRG_HO_SPEC, R214. -/
abbrev Reg.brgHoSpec : Nat := 0x8000 + 0x214
/-- BRG_HO_NTP, R214. -/
abbrev Reg.brgHoNtp : Nat := 0x8000 + 0x218
/-- BRG_HO_CLASS, R214. -/
abbrev Reg.brgHoClass : Nat := 0x8000 + 0x21c
/-- BRG_HO_STAT, R214. -/
abbrev Reg.brgHoStat : Nat := 0x8000 + 0x220
/-- BRG_HO_ELAPSED0–1, R214. -/
abbrev Reg.brgHoElapsed : Nat := 0x8000 + 0x224
/-- BRG_HO_TE0–1, R214. -/
abbrev Reg.brgHoTe : Nat := 0x8000 + 0x22c
/-- BRG_HO_RATE0–1, R214. -/
abbrev Reg.brgHoRate : Nat := 0x8000 + 0x234
/-- BRG_HO_AGE0–1, R214. -/
abbrev Reg.brgHoAge : Nat := 0x8000 + 0x23c
/-- BRG_MODEL0–1, R214. -/
abbrev Reg.brgModel : Nat := 0x8000 + 0x244
/-- BRG_FOUT_CTRL, R215. -/
abbrev Reg.brgFoutCtrl (f : Nat) : Nat := Reg.foutBase f + 0x0
/-- BRG_FOUT_M0–2, R215. -/
abbrev Reg.brgFoutM (f : Nat) : Nat := Reg.foutBase f + 0x4
/-- BRG_FOUT_DIV0–1, R215. -/
abbrev Reg.brgFoutDiv (f : Nat) : Nat := Reg.foutBase f + 0x10
/-- BRG_SYNCE_CTRL, R215. -/
abbrev Reg.brgSynceCtrl : Nat := 0x8000 + 0x380
/-- BRG_OUT_SQL0–7, R215. -/
abbrev Reg.brgOutSql (o : Nat) : Nat := 0x8000 + 0x3a0 + 0x4 * o
/-- BRG_IRIG_CTRL, R215. -/
abbrev Reg.brgIrigCtrl : Nat := 0x8000 + 0x3c0
/-- BRG_IRIG_CF0–1, R215. -/
abbrev Reg.brgIrigCf : Nat := 0x8000 + 0x3c4
/-- BRG_TOD_CTRL, R215. -/
abbrev Reg.brgTodCtrl (u : Nat) : Nat := 0x8000 + 0x3e0 + 0x10 * u
/-- BRG_TOD_BAUD, R215. -/
abbrev Reg.brgTodBaud (u : Nat) : Nat := 0x8000 + 0x3e4 + 0x10 * u
/-- BRG_TOD_UTCOFF, R215. -/
abbrev Reg.brgTodUtcoff (u : Nat) : Nat := 0x8000 + 0x3e8 + 0x10 * u
/-- HARP_CTRL, R245. -/
abbrev Reg.harpCtrl : Nat := 0x10000 + 0x0
/-- HARP_STAT, R245. -/
abbrev Reg.harpStat : Nat := 0x10000 + 0x4
/-- HARP_CAUSE, R245. -/
abbrev Reg.harpCause : Nat := 0x10000 + 0x8
/-- HARP_CAUSE_MASK, R245. -/
abbrev Reg.harpCauseMask : Nat := 0x10000 + 0xc
/-- HARP_IFU, R245. -/
abbrev Reg.harpIfu : Nat := 0x10000 + 0x10
/-- HARP_IFL, R245. -/
abbrev Reg.harpIfl : Nat := 0x10000 + 0x14
/-- HARP_LB_BIAS, R245. -/
abbrev Reg.harpLbBias : Nat := 0x10000 + 0x18
/-- HARP_BSTATU, R245. -/
abbrev Reg.harpBstatu : Nat := 0x10000 + 0x20
/-- HARP_BSTATL, R245. -/
abbrev Reg.harpBstatl : Nat := 0x10000 + 0x24
/-- HARP_SI0–2, R245. -/
abbrev Reg.harpSi : Nat := 0x10000 + 0x28
/-- HARP_MAP_NUT0–3, R245. -/
abbrev Reg.harpMapNut : Nat := 0x10000 + 0x40
/-- HARP_MAP_SI0–2, R245. -/
abbrev Reg.harpMapSi : Nat := 0x10000 + 0x50
/-- HARP_MAP_PER0–2, R245. -/
abbrev Reg.harpMapPer : Nat := 0x10000 + 0x5c
/-- HARP_MAP_RES, R245. -/
abbrev Reg.harpMapRes : Nat := 0x10000 + 0x68
/-- HARP_CN0_LOST, R245. -/
abbrev Reg.harpCn0Lost : Nat := 0x10000 + 0x80
/-- HARP_PULL_TMO, R245. -/
abbrev Reg.harpPullTmo : Nat := 0x10000 + 0x84
/-- HARP_PLL_TMO, R245. -/
abbrev Reg.harpPllTmo : Nat := 0x10000 + 0x88
/-- HARP_LOL_TMO, R245. -/
abbrev Reg.harpLolTmo : Nat := 0x10000 + 0x8c
/-- HARP_REACQ_TMO, R245. -/
abbrev Reg.harpReacqTmo : Nat := 0x10000 + 0x90
/-- HARP_MP_CN0, R245. -/
abbrev Reg.harpMpCn : Nat := 0x10000 + 0x94
/-- HARP_SREQ0–4, R245. -/
abbrev Reg.harpSreq : Nat := 0x10000 + 0x100
/-- HARP_SQ_STAT, R245. -/
abbrev Reg.harpSqStat : Nat := 0x10000 + 0x114
/-- HARP_SQ_CMD, R245. -/
abbrev Reg.harpSqCmd : Nat := 0x10000 + 0x118
/-- HARP_SQ_SEQ, R245. -/
abbrev Reg.harpSqSeq : Nat := 0x10000 + 0x11c
/-- HARP_SRES_WR, R245. -/
abbrev Reg.harpSresWr : Nat := 0x10000 + 0x120
/-- HARP_SRES_RD, R245. -/
abbrev Reg.harpSresRd : Nat := 0x10000 + 0x124
/-- HARP_SRES_LOST, R245. -/
abbrev Reg.harpSresLost : Nat := 0x10000 + 0x128
/-- HARP_CH_CAUSE0–4, R245. -/
abbrev Reg.harpChCause (w : Nat) : Nat := 0x10000 + 0x140 + 0x4 * w
/-- HARP_SIG_SPC, R246. -/
abbrev Reg.harpSigSpc (g : Nat) : Nat := Reg.sigBase g + 0x0
/-- HARP_SIG_SPC2, R246. -/
abbrev Reg.harpSigSpc2 (g : Nat) : Nat := Reg.sigBase g + 0x4
/-- HARP_SIG_LOOP, R246. -/
abbrev Reg.harpSigLoop (g : Nat) : Nat := Reg.sigBase g + 0x8
/-- HARP_SIG_THR, R246. -/
abbrev Reg.harpSigThr (g : Nat) : Nat := Reg.sigBase g + 0xc
/-- HARP_CH_CFG, R247. -/
abbrev Reg.harpChCfg (h : Nat) : Nat := Reg.chBase h + 0x0
/-- HARP_CH_CMD, R247. -/
abbrev Reg.harpChCmd (h : Nat) : Nat := Reg.chBase h + 0x4
/-- HARP_CH_STAT, R247. -/
abbrev Reg.harpChStat (h : Nat) : Nat := Reg.chBase h + 0x8
/-- HARP_CH_DOPP, R247. -/
abbrev Reg.harpChDopp (h : Nat) : Nat := Reg.chBase h + 0xc
/-- HARP_CH_MP0, R247. -/
abbrev Reg.harpChMp (h : Nat) : Nat := Reg.chBase h + 0x10
/-- HARP_CH_MP1, R247. -/
abbrev Reg.harpChMp1 (h : Nat) : Nat := Reg.chBase h + 0x14
/-- HARP_MCAUSE, R272. -/
abbrev Reg.harpMcause : Nat := 0x10000 + 0x300
/-- HARP_MCAUSE_MASK, R272. -/
abbrev Reg.harpMcauseMask : Nat := 0x10000 + 0x304
/-- HARP_EVT, R272. -/
abbrev Reg.harpEvt : Nat := 0x10000 + 0x308
/-- HARP_MEAS_WR, R272. -/
abbrev Reg.harpMeasWr : Nat := 0x10000 + 0x30c
/-- HARP_NAV_WR, R272. -/
abbrev Reg.harpNavWr : Nat := 0x10000 + 0x310
/-- HARP_EPOCH_FAST, R272. -/
abbrev Reg.harpEpochFast : Nat := 0x10000 + 0x314
/-- HARP_CABLE0–1, R272. -/
abbrev Reg.harpCable : Nat := 0x10000 + 0x318
/-- HARP_BDLY0–3, R272. -/
abbrev Reg.harpBdly (g : Nat) : Nat := 0x10000 + 0x320 + 0x4 * g
/-- HARP_NAV_CTRL, R272. -/
abbrev Reg.harpNavCtrl : Nat := 0x10000 + 0x330
/-- PRT_CTRL, R298. -/
abbrev Reg.prtCtrl (p : Nat) : Nat := Reg.portBase p + 0x0
/-- PRT_STAT, R298. -/
abbrev Reg.prtStat (p : Nat) : Nat := Reg.portBase p + 0x4
/-- PRT_MAC0–2, R298. -/
abbrev Reg.prtMac (p : Nat) : Nat := Reg.portBase p + 0x8
/-- PRT_MAXLEN, R298. -/
abbrev Reg.prtMaxlen (p : Nat) : Nat := Reg.portBase p + 0x14
/-- PRT_LAUNCH_TOL, R298. -/
abbrev Reg.prtLaunchTol (p : Nat) : Nat := Reg.portBase p + 0x18
/-- PRT_SD, R298. -/
abbrev Reg.prtSd (p : Nat) : Nat := Reg.portBase p + 0x1c
/-- PRT_I2C_MUX, R298. -/
abbrev Reg.prtI2cMux (p : Nat) : Nat := Reg.portBase p + 0x20
/-- PRT_I2C_CMD, R298. -/
abbrev Reg.prtI2cCmd (p : Nat) : Nat := Reg.portBase p + 0x24
/-- PRT_I2C_DATA, R298. -/
abbrev Reg.prtI2cData (p : Nat) : Nat := Reg.portBase p + 0x28
/-- PRT_CAUSE, R298. -/
abbrev Reg.prtCause (p : Nat) : Nat := Reg.portBase p + 0x2c
/-- PRT_CAUSE_MASK, R298. -/
abbrev Reg.prtCauseMask (p : Nat) : Nat := Reg.portBase p + 0x30
/-- PRT_FCS_ERR to PRT_LAUNCH_LATE, R298. -/
abbrev Reg.prtCnt (p w : Nat) : Nat := Reg.portBase p + 0x40 + 4 * w
/-- CRS_CLASS_CFGk, R299. -/
abbrev Reg.crsClassCfg (c k : Nat) : Nat := Reg.crsBase c + 0x200 + 0x10 * k
/-- CRS_CLASS_LEVELk, R299. -/
abbrev Reg.crsClassLevel (c k : Nat) : Nat := Reg.crsBase c + 0x204 + 0x10 * k
/-- CRS_CLASS_DROPk, R299. -/
abbrev Reg.crsClassDrop (c k : Nat) : Nat := Reg.crsBase c + 0x208 + 0x10 * k
/-- CRS_CLASS_DISPk, R299. -/
abbrev Reg.crsClassDisp (c k : Nat) : Nat := Reg.crsBase c + 0x20c + 0x10 * k
/-- CRS_STEER_DEFAULT, R299. -/
abbrev Reg.crsSteerDefault (c : Nat) : Nat := Reg.crsBase c + 0x280
/-- CRS_BUF_CFG, R299. -/
abbrev Reg.crsBufCfg (c : Nat) : Nat := Reg.crsBase c + 0x284
/-- CRS_BUF_STAT, R299. -/
abbrev Reg.crsBufStat (c : Nat) : Nat := Reg.crsBase c + 0x288
/-- CRS_HASH_SEED, R299. -/
abbrev Reg.crsHashSeed (c : Nat) : Nat := Reg.crsBase c + 0x28c
/-- CRS_ORPHAN, R299. -/
abbrev Reg.crsOrphan (c : Nat) : Nat := Reg.crsBase c + 0x290
/-- CRS_STEER_DEFHIT, R299. -/
abbrev Reg.crsSteerDefhit (c : Nat) : Nat := Reg.crsBase c + 0x294
/-- CRS_PUNT_DROPr, R299. -/
abbrev Reg.crsPuntDrop (c r : Nat) : Nat := Reg.crsBase c + 0x2a0 + 0x4 * r
/-- CRS_STEER_VAL0–4, R299. -/
abbrev Reg.crsSteerVal (c e : Nat) : Nat := Reg.steerBase c e + 0x0
/-- CRS_STEER_MASK0–4, R299. -/
abbrev Reg.crsSteerMask (c e : Nat) : Nat := Reg.steerBase c e + 0x14
/-- CRS_STEER_ACT, R299. -/
abbrev Reg.crsSteerAct (c e : Nat) : Nat := Reg.steerBase c e + 0x28
/-- CRS_STEER_HIT, R299. -/
abbrev Reg.crsSteerHit (c e : Nat) : Nat := Reg.steerBase c e + 0x2c
/-- CRS_RUN, R338. -/
abbrev Reg.crsRun (c : Nat) : Nat := Reg.crsBase c + 0x0
/-- CRS_COMPAT, R338. -/
abbrev Reg.crsCompat (c : Nat) : Nat := Reg.crsBase c + 0x4
/-- CRS_PERM, R338. -/
abbrev Reg.crsPerm (c : Nat) : Nat := Reg.crsBase c + 0x8
/-- CRS_DRAIN_TMO, R338. -/
abbrev Reg.crsDrainTmo (c : Nat) : Nat := Reg.crsBase c + 0xc
/-- CRS_RUNAWAY, R338. -/
abbrev Reg.crsRunaway (c : Nat) : Nat := Reg.crsBase c + 0x10
/-- CRS_HOST_START, R338. -/
abbrev Reg.crsHostStart (c : Nat) : Nat := Reg.crsBase c + 0x14
/-- CRS_HOST_ARG, R338. -/
abbrev Reg.crsHostArg (c : Nat) : Nat := Reg.crsBase c + 0x18
/-- CRS_HOST_CMD, R338. -/
abbrev Reg.crsHostCmd (c : Nat) : Nat := Reg.crsBase c + 0x1c
/-- CRS_COMPAT_REJ, R338. -/
abbrev Reg.crsCompatRej (c : Nat) : Nat := Reg.crsBase c + 0x20
/-- CRS_CTX_FAULTS, R338. -/
abbrev Reg.crsCtxFaults (c : Nat) : Nat := Reg.crsBase c + 0x24
/-- CRS_DRAIN_KILL, R338. -/
abbrev Reg.crsDrainKill (c : Nat) : Nat := Reg.crsBase c + 0x28
/-- CRS_CAUSE, R338. -/
abbrev Reg.crsCause (c : Nat) : Nat := Reg.crsBase c + 0x40
/-- CRS_CAUSE_MASK, R338. -/
abbrev Reg.crsCauseMask (c : Nat) : Nat := Reg.crsBase c + 0x44
/-- CRS_CLASS_ENTRYk, R338. -/
abbrev Reg.crsClassEntry (c k : Nat) : Nat := Reg.crsBase c + 0x300 + 0x4 * k
/-- CRS_EVTe, R338. -/
abbrev Reg.crsEvt (c e : Nat) : Nat := Reg.crsBase c + 0x400 + 0x4 * e
/-- STR_CTL, R339. -/
abbrev Reg.strCtl (s : Nat) : Nat := Reg.strBase s + 0x0
/-- STR_STAT, R339. -/
abbrev Reg.strStat (s : Nat) : Nat := Reg.strBase s + 0x4
/-- STR_WDOG, R339. -/
abbrev Reg.strWdog (s : Nat) : Nat := Reg.strBase s + 0x8
/-- STR_CTX_STATx, R339. -/
abbrev Reg.strCtxStat (s x : Nat) : Nat := Reg.strBase s + 0x40 + 0x4 * x
/-- STR_CTX_FAULTx, R339. -/
abbrev Reg.strCtxFault (s x : Nat) : Nat := Reg.strBase s + 0x60 + 0x4 * x
/-- STR_CTX_CMDx, R339. -/
abbrev Reg.strCtxCmd (s x : Nat) : Nat := Reg.strBase s + 0x80 + 0x4 * x
/-- DMP_CTRL, R438. -/
abbrev Reg.dmpCtrl : Nat := 0xC000 + 0x0
/-- DMP_STAT, R438. -/
abbrev Reg.dmpStat : Nat := 0xC000 + 0x4
/-- DMP_BASE0–3, R438. -/
abbrev Reg.dmpBase : Nat := 0xC000 + 0x8
/-- DMP_WR, R438. -/
abbrev Reg.dmpWr : Nat := 0xC000 + 0x18
/-- DMP_RD, R438. -/
abbrev Reg.dmpRd : Nat := 0xC000 + 0x1c
/-- DMP_SEQ, R438. -/
abbrev Reg.dmpSeq : Nat := 0xC000 + 0x20
/-- DMP_LAST0–3, R438. -/
abbrev Reg.dmpLast : Nat := 0xC000 + 0x24
/-- DMP_LOST, R438. -/
abbrev Reg.dmpLost : Nat := 0xC000 + 0x34
/-- DMP_FAST, R438. -/
abbrev Reg.dmpFast : Nat := 0xC000 + 0x38
/-- DMP_CAUSE, R438. -/
abbrev Reg.dmpCause : Nat := 0xC000 + 0x40
/-- DMP_CAUSE_MASK, R438. -/
abbrev Reg.dmpCauseMask : Nat := 0xC000 + 0x44
/-- PMC_LEG_SEL, R438. -/
abbrev Reg.pmcLegSel : Nat := 0xC000 + 0x100
/-- PMC_LEG_VAL0–2, R438. -/
abbrev Reg.pmcLegVal : Nat := 0xC000 + 0x104
/-- PMC_LEG_STAT, R438. -/
abbrev Reg.pmcLegStat : Nat := 0xC000 + 0x110
/-- PMC_STR_SELk, R439. -/
abbrev Reg.pmcStrSel (s k : Nat) : Nat := Reg.strBase s + 0x100 + 0x4 * k
/-- PMC_STR_CTL, R439. -/
abbrev Reg.pmcStrCtl (s : Nat) : Nat := Reg.strBase s + 0x120
/-- PMC_CRS_SELk, R439. -/
abbrev Reg.pmcCrsSel (c k : Nat) : Nat := Reg.crsBase c + 0x500 + 0x4 * k
/-- PMC_PRT_BW, R439. -/
abbrev Reg.pmcPrtBw (p : Nat) : Nat := Reg.portBase p + 0x60
/-- IRQ_SUMMARY, R458. -/
abbrev Reg.irqSummary : Nat := 0x20
/-- IRQ_SUMMARY_MASK, R458. -/
abbrev Reg.irqSummaryMask : Nat := 0x24
/-- IRQ_CTRL, R458. -/
abbrev Reg.irqCtrl : Nat := 0x28
/-- IRQ_PLKMAPc0–3, R458. -/
abbrev Reg.irqPlkmap (c w : Nat) : Nat := 0x1100 + 0x10 * c + 4 * w
/-- IRQ_DBELLc, R458. -/
abbrev Reg.irqDbell (c : Nat) : Nat := 0x1140 + 0x4 * c
/-- IRQ_FAULT, R458. -/
abbrev Reg.irqFault : Nat := 0x1180
/-- IRQ_FAULT_MASK, R458. -/
abbrev Reg.irqFaultMask : Nat := 0x1184
/-- IRQ_ERR_WR, R458. -/
abbrev Reg.irqErrWr : Nat := 0x1190
/-- IRQ_ERR_RD, R458. -/
abbrev Reg.irqErrRd : Nat := 0x1194
/-- IRQ_ERR_LOST, R458. -/
abbrev Reg.irqErrLost : Nat := 0x1198
/-- IRQ_VOID_CNT, R458. -/
abbrev Reg.irqVoidCnt : Nat := 0x119c
/-- DEV_RST, R481. -/
abbrev Reg.devRst : Nat := 0x40
/-- DEV_CRS_RST, R481. -/
abbrev Reg.devCrsRst : Nat := 0x44
/-- DEV_CFG_ERR, R481. -/
abbrev Reg.devCfgErr : Nat := 0x48
/-- PWR_CTRL, R481. -/
abbrev Reg.pwrCtrl : Nat := 0x2080
/-- PWR_STAT, R481. -/
abbrev Reg.pwrStat : Nat := 0x2084
/-- PWR_SUPPLY, R481. -/
abbrev Reg.pwrSupply : Nat := 0x2088
/-- PWR_CAUSE, R481. -/
abbrev Reg.pwrCause : Nat := 0x208c
/-- PWR_CAUSE_MASK, R481. -/
abbrev Reg.pwrCauseMask : Nat := 0x2090
/-- PWR_THERM, R481. -/
abbrev Reg.pwrTherm : Nat := 0x2094
/-- PWR_RST_LAST, R481. -/
abbrev Reg.pwrRstLast : Nat := 0x2098
/-- DEV_PART, R497. -/
abbrev Reg.devPart : Nat := 0x0
/-- DEV_REV, R497. -/
abbrev Reg.devRev : Nat := 0x4
/-- DEV_DIE0–3, R497. -/
abbrev Reg.devDie : Nat := 0x8
/-- CFG_STAT, R501. -/
abbrev Reg.cfgStat : Nat := 0x2000
/-- CFG_CAUSE, R501. -/
abbrev Reg.cfgCause : Nat := 0x2004
/-- CFG_CAUSE_MASK, R501. -/
abbrev Reg.cfgCauseMask : Nat := 0x2008
/-- CFG_LOAD, R501. -/
abbrev Reg.cfgLoad : Nat := 0x200c
/-- CFG_IMG_VER0–1, R501. -/
abbrev Reg.cfgImgVer : Nat := 0x2010
/-- CFG_IMG_HDR, R501. -/
abbrev Reg.cfgImgHdr : Nat := 0x2018
/-- CFG_CHECK0–1, R501. -/
abbrev Reg.cfgCheck : Nat := 0x201c
/-- CFG_REJ, R501. -/
abbrev Reg.cfgRej : Nat := 0x2024
/-- CFG_HOSTDROP, R501. -/
abbrev Reg.cfgHostdrop : Nat := 0x2028
/-- CFG_CRS_VERc0–1, R501. -/
abbrev Reg.cfgCrsVer (c : Nat) : Nat := 0x2030 + 0x8 * c
/-- CFG_SPI_CMD, R501. -/
abbrev Reg.cfgSpiCmd : Nat := 0x2050
/-- CFG_SPI_ADDR0–1, R501. -/
abbrev Reg.cfgSpiAddr : Nat := 0x2054
/-- CFG_SPI_LEN, R501. -/
abbrev Reg.cfgSpiLen : Nat := 0x205c
/-- CFG_SPI_BUFi, R501. -/
abbrev Reg.cfgSpiBuf (i : Nat) : Nat := 0x2400 + 0x4 * i
/-- DEV_MAP, R520. -/
abbrev Reg.devMap : Nat := 0x30
/-- DEV_HOST_CAUSE, R520. -/
abbrev Reg.devHostCause : Nat := 0xc00
/-- DEV_HOST_CAUSE_MASK, R520. -/
abbrev Reg.devHostCauseMask : Nat := 0xc04
/-- DEV_PCIE_STAT, R520. -/
abbrev Reg.devPcieStat : Nat := 0xc08
/-- DEV_RXr_CTRL, R520. -/
abbrev Reg.devRxCtrl (r : Nat) : Nat := 0xd00 + 0x20 * r
/-- DEV_RXr_BASE0–3, R520. -/
abbrev Reg.devRxBase (r : Nat) : Nat := 0xd04 + 0x20 * r
/-- DEV_RXr_WR, R520. -/
abbrev Reg.devRxWr (r : Nat) : Nat := 0xd14 + 0x20 * r
/-- DEV_RXr_RD, R520. -/
abbrev Reg.devRxRd (r : Nat) : Nat := 0xd18 + 0x20 * r
/-- DEV_TXt_CTRL, R520. -/
abbrev Reg.devTxCtrl (t : Nat) : Nat := 0xe00 + 0x20 * t
/-- DEV_TXt_BASE0–3, R520. -/
abbrev Reg.devTxBase (t : Nat) : Nat := 0xe04 + 0x20 * t
/-- DEV_TXt_TAIL, R520. -/
abbrev Reg.devTxTail (t : Nat) : Nat := 0xe14 + 0x20 * t
/-- DEV_TXt_HEAD, R520. -/
abbrev Reg.devTxHead (t : Nat) : Nat := 0xe18 + 0x20 * t
/-- DEV_TXt_DONE, R520. -/
abbrev Reg.devTxDone (t : Nat) : Nat := 0xe1c + 0x20 * t
/-- KEY_STAGEi, R520. -/
abbrev Reg.keyStage (i : Nat) : Nat := 0x114000 + 0x4 * i
/-- KEY_CMD, R520. -/
abbrev Reg.keyCmd : Nat := 0x114080
/-- KEY_OCCw, R520. -/
abbrev Reg.keyOcc (w : Nat) : Nat := 0x114100 + 0x4 * w
/-- PNL_CTRL, R533. -/
abbrev Reg.pnlCtrl : Nat := 0x3000 + 0x0
/-- PNL_LONG, R533. -/
abbrev Reg.pnlLong : Nat := 0x3000 + 0x4
/-- PNL_KEYS, R533. -/
abbrev Reg.pnlKeys : Nat := 0x3000 + 0x8
/-- PNL_ANT, R533. -/
abbrev Reg.pnlAnt : Nat := 0x3000 + 0xc
/-- PNL_TOUCH_THR, R533. -/
abbrev Reg.pnlTouchThr : Nat := 0x3000 + 0x10
/-- PNL_TOUCH_STAT, R533. -/
abbrev Reg.pnlTouchStat : Nat := 0x3000 + 0x14
/-- PNL_TBASE0–3, R533. -/
abbrev Reg.pnlTbase (p : Nat) : Nat := 0x3000 + 0x20 + 0x4 * p
/-- PNL_CAUSE, R533. -/
abbrev Reg.pnlCause : Nat := 0x3000 + 0x40
/-- PNL_CAUSE_MASK, R533. -/
abbrev Reg.pnlCauseMask : Nat := 0x3000 + 0x44
/-- PNL_EVT_LOST, R533. -/
abbrev Reg.pnlEvtLost : Nat := 0x3000 + 0x48
/-- PNL_QLEVEL, R533. -/
abbrev Reg.pnlQlevel : Nat := 0x3000 + 0x4c
/-- PNL_EVT0–4, R533. -/
abbrev Reg.pnlEvt : Nat := 0x3000 + 0x50
/-- PNL_BINDi, R533. -/
abbrev Reg.pnlBind (i : Nat) : Nat := 0x3000 + 0x100 + 0x4 * i
/-- PNL_LEDl, R533. -/
abbrev Reg.pnlLed (l : Nat) : Nat := 0x3000 + 0x200 + 0x4 * l
/-- PWR_LO, R543. -/
abbrev Reg.pwrLo : Nat := 0x209c
/-- IRQ_ERR_RECw, R456. -/
abbrev Reg.irqErrRec (w : Nat) : Nat := 0x1800 + 0x4 * w
/-- CRS_LANE, R459. -/
abbrev Reg.crsLane (c : Nat) : Nat := Reg.crsBase c + 0x48

/-- CRS_SPEED, R32. -/
abbrev Reg.crsSpeed (c : Nat) : Nat := Reg.crsBase c + 0x100
/-- CRS_SPEED_CFG, R32. -/
abbrev Reg.crsSpeedCfg (c : Nat) : Nat := Reg.crsBase c + 0x104

/-- The registers of tunings (R58). -/
def tunRows : List RegRow :=
  [⟨0, 1, 4, 1, 0xe0000, 0xe0000, 0, 0⟩,
   ⟨4, 1, 4, 1, 0, 0, 0x8000, 0x80000⟩,
   ⟨8, 1, 4, 1, 0, 0, 0, 0⟩,
   ⟨0x10, 1, 0x10, 4, 0xfffff, 0xfffff, 0, 0⟩,
   ⟨0x20, 1, 0x14, 5, 0xfffff, 0xfffff, 0, 0⟩,
   ⟨0x34, 1, 8, 2, 0xfffff, 0xfffff, 0, 0⟩,
   ⟨0x40, 1, 0x10, 4, 0, 0, 0, 0⟩,
   ⟨0x50, 1, 0x14, 5, 0, 0, 0, 0⟩,
   ⟨0x64, 1, 8, 2, 0, 0, 0, 0⟩,
   ⟨0x70, 1, 0x14, 5, 0, 0, 0, 0⟩,
   ⟨0x84, 1, 0x10, 4, 0, 0, 0, 0⟩,
   ⟨0xc0, 1, 4, 1, 0xc0000, 0xc0000, 0x30000, 0⟩,
   ⟨0xc4, 1, 0xc, 3, 0xfffff, 0xff, 0, 0⟩,
   ⟨0xd0, 1, 4, 1, 0x1ffff, 0x1ffff, 0, 0x15180⟩]

/-- The registers of a port and its fret (R107, R298, R439). -/
def portRows : List RegRow :=
  [⟨0, 1, 4, 1, 0xff000, 0xff000, 0x800, 0⟩,
   ⟨4, 1, 4, 1, 0, 0, 0, 0⟩,
   ⟨8, 1, 0xc, 3, 0xfffff, 0xff, 0, 0⟩,
   ⟨0x14, 1, 4, 1, 0xfff, 0xfff, 0, 0x5f2⟩,
   ⟨0x18, 1, 4, 1, 0x3ff, 0x3ff, 0, 0x14⟩,
   ⟨0x1c, 1, 4, 1, 0xffffc, 0xffffc, 0, 0x88c0⟩,
   ⟨0x20, 1, 4, 1, 0xffff, 0xffff, 0, 0x7000⟩,
   ⟨0x24, 1, 4, 1, 0x460ff, 0x460ff, 0, 0⟩,
   ⟨0x28, 1, 4, 1, 0xffff, 0xffff, 0, 0⟩,
   ⟨0x2c, 1, 4, 1, 0, 0, 0xf0000, 0⟩,
   ⟨0x30, 1, 4, 1, 0xf0000, 0xf0000, 0, 0⟩,
   ⟨0x40, 7, 4, 1, 0, 0, 0, 0⟩,
   ⟨0x60, 1, 4, 1, 0x3fff, 0x3fff, 0, 0x3e8⟩,
   ⟨0x1000, 1, 4, 1, 0, 0, 0x3e000, 0⟩,
   ⟨0x1004, 1, 4, 1, 0, 0, 0, 0⟩,
   ⟨0x1008, 1, 4, 1, 0, 0, 0, 0⟩] ++
  [⟨0x100c, 1, 4, 1, 0, 0, 0, 0⟩,
   ⟨0x1010, 1, 4, 1, 0, 0, 0, 0⟩,
   ⟨0x1014, 1, 4, 1, 0xfffff, 0xfffff, 0, 0⟩,
   ⟨0x1018, 1, 4, 1, 0xfffff, 0xfffff, 0, 0⟩,
   ⟨0x101c, 1, 4, 1, 0xfffff, 0xfffff, 0, 0⟩,
   ⟨0x1020, 1, 4, 1, 0, 0, 0, 0⟩,
   ⟨0x1024, 1, 4, 1, 0, 0, 0, 0⟩,
   ⟨0x1028, 1, 4, 1, 0, 0, 0, 0⟩]

/-- The registers of a pick (R129). -/
def pickRows : List RegRow :=
  [⟨0, 1, 4, 1, 0xfff00, 0xfff00, 0, 0x1500⟩,
   ⟨4, 1, 4, 1, 0, 0, 0x58000, 0⟩,
   ⟨8, 1, 4, 1, 0xf8000, 0xf8000, 0, 0⟩,
   ⟨0xc, 1, 4, 1, 0xfffff, 0xfffff, 0, 0x64⟩,
   ⟨0x10, 1, 4, 1, 0x80000, 0x80000, 0, 0⟩,
   ⟨0x14, 1, 4, 1, 0xfffff, 0xfffff, 0, 0x3e8⟩,
   ⟨0x18, 1, 8, 2, 0xfffff, 0xfffff, 0, 0⟩,
   ⟨0x20, 1, 4, 1, 0xffe00, 0xffe00, 0, 0x800⟩,
   ⟨0x24, 1, 4, 1, 0x7ffff, 0x7ffff, 0, 0⟩,
   ⟨0x28, 1, 4, 1, 0, 0, 0, 0⟩,
   ⟨0x2c, 1, 4, 1, 0, 0, 0, 0⟩,
   ⟨0x30, 1, 0x14, 5, 0, 0, 0, 0⟩,
   ⟨0x50, 1, 4, 1, 0, 0, 0, 0⟩,
   ⟨0x54, 1, 8, 2, 0, 0, 0, 0⟩,
   ⟨0x60, 1, 0x10, 4, 0, 0, 0, 0⟩,
   ⟨0x70, 1, 8, 2, 0, 0, 0, 0⟩] ++
  [⟨0x78, 1, 0x10, 4, 0, 0, 0, 0⟩,
   ⟨0x88, 1, 0x14, 5, 0, 0, 0, 0⟩,
   ⟨0x9c, 1, 0x14, 5, 0, 0, 0, 0⟩,
   ⟨0xb0, 1, 0x18, 6, 0, 0, 0, 0⟩]

/-- The registers of the house channels (R130). -/
def houseRows : List RegRow :=
  [⟨0, 1, 4, 1, 0x80007, 0x80007, 0, 0⟩,
   ⟨8, 1, 0x10, 4, 0, 0, 0, 0⟩,
   ⟨0x20, 4, 4, 1, 0, 0, 0, 0xfffff⟩]

/-- The registers of a general pluck (R159). -/
def plkRows : List RegRow :=
  [⟨0, 1, 4, 1, 0xfffc0, 0xfffc0, 0, 0⟩,
   ⟨4, 1, 4, 1, 0, 0, 0xfc00, 0⟩,
   ⟨8, 1, 4, 1, 0, 0, 0, 0⟩,
   ⟨0xc, 1, 4, 1, 0x1fff, 0x1fff, 0, 0⟩,
   ⟨0x10, 1, 0x14, 5, 0xfffff, 0xfffff, 0, 0⟩,
   ⟨0x24, 1, 0xc, 3, 0xfffff, 0xfffff, 0, 0⟩,
   ⟨0x30, 1, 8, 2, 0xfffff, 0xfffff, 0, 0⟩,
   ⟨0x40, 1, 0x10, 4, 0, 0, 0, 0⟩,
   ⟨0x50, 1, 0x10, 4, 0, 0, 0, 0⟩,
   ⟨0x60, 1, 4, 1, 0, 0, 0, 0⟩,
   ⟨0x64, 1, 4, 1, 0, 0, 0, 0⟩]

/-- The registers of an edge pluck (R160). -/
def edgeRows : List RegRow :=
  [⟨0, 1, 4, 1, 0xff800, 0xff800, 0, 0⟩,
   ⟨4, 1, 4, 1, 0, 0, 0xd800, 0x10000⟩,
   ⟨8, 1, 4, 1, 0, 0, 0, 0⟩,
   ⟨0x10, 1, 0x14, 5, 0xfffff, 0xfffff, 0, 0⟩,
   ⟨0x24, 1, 0xc, 3, 0xfffff, 0xfffff, 0, 0⟩,
   ⟨0x30, 1, 8, 2, 0xfffff, 0xfffff, 0, 0x2625a00⟩,
   ⟨0x38, 1, 4, 1, 0xf0000, 0xf0000, 0, 0x40000⟩,
   ⟨0x3c, 1, 4, 1, 0, 0, 0, 0⟩,
   ⟨0x40, 1, 0x10, 4, 0, 0, 0, 0⟩,
   ⟨0x50, 1, 4, 1, 0, 0, 0, 0⟩]

/-- The registers of the pluck globals (R160). -/
def plkgRows : List RegRow :=
  [⟨0, 1, 4, 1, 0, 0, 0, 0⟩,
   ⟨4, 1, 4, 1, 0, 0, 0, 0⟩]

/-- The registers of the bridge (R182, R214, R215). -/
def brgRows : List RegRow :=
  [⟨0, 1, 4, 1, 0xef000, 0xef000, 0x10000, 0x20000⟩,
   ⟨4, 1, 4, 1, 0, 0, 0, 0⟩,
   ⟨8, 1, 4, 1, 0x3fff, 0x3fff, 0, 0x3e8⟩,
   ⟨0xc, 1, 4, 1, 0xfff, 0xfff, 0, 0x12c⟩,
   ⟨0x10, 1, 4, 1, 0x3ff, 0x3ff, 0, 0xa⟩,
   ⟨0x14, 1, 4, 1, 0x7f, 0x7f, 0, 4⟩,
   ⟨0x18, 1, 4, 1, 0x3ff, 0x3ff, 0, 0x40⟩,
   ⟨0x1c, 1, 4, 1, 0xfffff, 0xfffff, 0, 0x2710⟩,
   ⟨0x20, 1, 4, 1, 0xfffff, 0xfffff, 0, 0x186a0⟩,
   ⟨0x24, 1, 4, 1, 0, 0, 0, 0⟩,
   ⟨0x28, 1, 4, 1, 0, 0, 0, 0⟩,
   ⟨0x2c, 1, 4, 1, 0, 0, 0, 0⟩,
   ⟨0x40, 1, 4, 1, 0, 0, 0xfffff, 0⟩,
   ⟨0x44, 1, 4, 1, 0xfffff, 0xfffff, 0, 0⟩,
   ⟨0x100, 1, 4, 1, 0xe0000, 0xe0000, 0, 0⟩,
   ⟨0x104, 1, 4, 1, 0x1ffff, 0x1ffff, 0, 0x64⟩] ++
  [⟨0x108, 1, 4, 1, 0x1ffff, 0x1ffff, 0, 0x2710⟩,
   ⟨0x10c, 1, 4, 1, 0x3ff, 0x3ff, 0, 0x50⟩,
   ⟨0x110, 1, 4, 1, 0xfffff, 0xfffff, 0, 0x3e8⟩,
   ⟨0x114, 1, 4, 1, 0xfffff, 0xfffff, 0, 0x3e8⟩,
   ⟨0x118, 1, 8, 2, 0, 0, 0, 0⟩,
   ⟨0x120, 1, 8, 2, 0, 0, 0, 0⟩,
   ⟨0x128, 1, 0xc, 3, 0, 0, 0, 0⟩,
   ⟨0x134, 1, 8, 2, 0xfffff, 0xfffff, 0, 0⟩,
   ⟨0x13c, 1, 4, 1, 0, 0, 0, 0⟩,
   ⟨0x140, 1, 4, 1, 0, 0, 0, 0⟩,
   ⟨0x144, 1, 0xc, 3, 0, 0, 0, 0⟩,
   ⟨0x150, 1, 4, 1, 0, 0, 0xf8000, 0⟩,
   ⟨0x154, 1, 4, 1, 0xf8000, 0xf8000, 0, 0⟩,
   ⟨0x200, 1, 4, 1, 0xffff, 0xffff, 0, 0xe10⟩,
   ⟨0x204, 1, 4, 1, 0xff, 0xff, 0, 0x18⟩,
   ⟨0x208, 1, 8, 2, 0xfffff, 0xfffff, 0, 0x3e8⟩] ++
  [⟨0x210, 1, 4, 1, 0xfffff, 0xfffff, 0, 0x1f4⟩,
   ⟨0x214, 1, 4, 1, 0xfffff, 0xfffff, 0, 0x5dc⟩,
   ⟨0x218, 1, 4, 1, 0xfffff, 0xfffff, 0, 0xa⟩,
   ⟨0x21c, 1, 4, 1, 0xff, 0xff, 0, 0x8c⟩,
   ⟨0x220, 1, 4, 1, 0, 0, 0, 0x200f8⟩,
   ⟨0x224, 1, 8, 2, 0, 0, 0, 0⟩,
   ⟨0x22c, 1, 8, 2, 0, 0, 0, 0⟩,
   ⟨0x234, 1, 8, 2, 0, 0, 0, 0⟩,
   ⟨0x23c, 1, 8, 2, 0, 0, 0, 0⟩,
   ⟨0x244, 1, 8, 2, 0, 0, 0, 0⟩,
   ⟨0x380, 1, 4, 1, 0x8000f, 0x8000f, 0, 0⟩,
   ⟨0x3a0, 8, 4, 1, 0xe0000, 0xe0000, 0, 0x80000⟩,
   ⟨0x3c0, 1, 4, 1, 0xfe000, 0xfe000, 0, 0⟩,
   ⟨0x3c4, 1, 8, 2, 0xfffff, 0x7f, 0, 0⟩,
   ⟨0x3e0, 2, 0x10, 1, 0xfffff, 0xfffff, 0, 0x64⟩,
   ⟨0x3e4, 2, 0x10, 1, 7, 7, 0, 0⟩] ++
  [⟨0x3e8, 2, 0x10, 1, 0xffff, 0xffff, 0, 0x25⟩]

/-- The registers of a reference slot (R183). -/
def slotRows : List RegRow :=
  [⟨0, 1, 4, 1, 0xffff0, 0xffff0, 0, 0x3c0⟩,
   ⟨4, 1, 4, 1, 0, 0, 0x40, 0⟩,
   ⟨8, 1, 4, 1, 0, 0, 0, 0⟩,
   ⟨0xc, 1, 4, 1, 0xfffff, 0xfffff, 0, 0x5dc⟩,
   ⟨0x10, 1, 4, 1, 0xfffff, 0xfffff, 0, 0xb3b0⟩,
   ⟨0x14, 1, 4, 1, 0xfffff, 0xfffff, 0, 0x3e8⟩,
   ⟨0x18, 1, 4, 1, 0xfffff, 0xfffff, 0, 0x1388⟩,
   ⟨0x1c, 1, 4, 1, 0xfffff, 0xfffff, 0, 0x32⟩,
   ⟨0x20, 1, 4, 1, 0xfffff, 0xfffff, 0, 0x3e8⟩,
   ⟨0x24, 1, 0xc, 3, 0xfffff, 0xfffff, 0, 0⟩,
   ⟨0x30, 1, 0xc, 3, 0, 0, 0, 0⟩,
   ⟨0x3c, 1, 0x10, 4, 0, 0, 0, 0⟩,
   ⟨0x4c, 1, 8, 2, 0, 0, 0, 0⟩,
   ⟨0x54, 1, 8, 2, 0, 0, 0, 0⟩,
   ⟨0x5c, 1, 0xc, 3, 0, 0, 0, 0⟩,
   ⟨0x68, 1, 4, 1, 0, 0, 0, 0⟩] ++
  [⟨0x6c, 1, 4, 1, 0, 0, 0, 0⟩]

/-- The registers of an FMU (R184). -/
def fmuRows : List RegRow :=
  [⟨0, 1, 4, 1, 0xbdff8, 0xbdff8, 0, 0xa00⟩,
   ⟨4, 1, 4, 1, 0, 0, 0x30000, 0⟩,
   ⟨0x10, 1, 4, 1, 0x80000, 0x80000, 0, 0⟩,
   ⟨0x14, 1, 4, 1, 0xfffff, 0xfffff, 0, 0x3e8⟩,
   ⟨0x18, 1, 8, 2, 0xfffff, 0xfffff, 0, 0⟩,
   ⟨0x50, 1, 4, 1, 0, 0, 0, 0⟩,
   ⟨0x54, 1, 8, 2, 0, 0, 0, 0⟩,
   ⟨0x60, 1, 0x10, 4, 0, 0, 0, 0⟩,
   ⟨0x70, 1, 8, 2, 0, 0, 0, 0⟩,
   ⟨0x78, 1, 0x10, 4, 0, 0, 0, 0⟩,
   ⟨0x88, 1, 0x14, 5, 0, 0, 0, 0⟩,
   ⟨0x9c, 1, 0x14, 5, 0, 0, 0, 0⟩,
   ⟨0xb0, 1, 0x18, 6, 0, 0, 0, 0⟩]

/-- The registers of a frequency output (R215). -/
def foutRows : List RegRow :=
  [⟨0, 1, 4, 1, 0xf0000, 0xf0000, 0x2000, 0x44000⟩,
   ⟨4, 1, 0xc, 3, 0xfffff, 0x3fff, 0, 0xc800000000000⟩,
   ⟨0x10, 1, 8, 2, 0xfffff, 0xfffff, 0, 0x20⟩]

/-- The registers of the harp (R245, R272). -/
def harpRows : List RegRow :=
  [⟨0, 1, 4, 1, 0xf0000, 0xf0000, 0, 0⟩,
   ⟨4, 1, 4, 1, 0, 0, 0x10000, 0⟩,
   ⟨8, 1, 4, 1, 0, 0, 0xfc000, 0⟩,
   ⟨0xc, 1, 4, 1, 0xfc000, 0xfc000, 0, 0⟩,
   ⟨0x10, 1, 4, 1, 0xfffff, 0xfffff, 0, 0⟩,
   ⟨0x14, 1, 4, 1, 0xfffff, 0xfffff, 0, 0⟩,
   ⟨0x18, 1, 4, 1, 0xfffff, 0xfffff, 0, 0⟩,
   ⟨0x20, 1, 4, 1, 0, 0, 0, 0⟩,
   ⟨0x24, 1, 4, 1, 0, 0, 0, 0⟩,
   ⟨0x28, 1, 0xc, 3, 0, 0, 0, 0⟩,
   ⟨0x40, 1, 0x10, 4, 0, 0, 0, 0⟩,
   ⟨0x50, 1, 0xc, 3, 0, 0, 0, 0⟩,
   ⟨0x5c, 1, 0xc, 3, 0, 0, 0, 0⟩,
   ⟨0x68, 1, 4, 1, 0, 0, 0, 0⟩,
   ⟨0x80, 1, 4, 1, 0x3ff, 0x3ff, 0, 0x190⟩,
   ⟨0x84, 1, 4, 1, 0xffff, 0xffff, 0, 0x3e8⟩] ++
  [⟨0x88, 1, 4, 1, 0xffff, 0xffff, 0, 0xc8⟩,
   ⟨0x8c, 1, 4, 1, 0xffff, 0xffff, 0, 0x7d0⟩,
   ⟨0x90, 1, 4, 1, 0xfff, 0xfff, 0, 0xa⟩,
   ⟨0x94, 1, 4, 1, 0x3ff, 0x3ff, 0, 0x280⟩,
   ⟨0x100, 1, 0x14, 5, 0xfffff, 0xfffff, 0, 0⟩,
   ⟨0x114, 1, 4, 1, 0, 0, 0, 0⟩,
   ⟨0x118, 1, 4, 1, 0, 0, 0, 0⟩,
   ⟨0x11c, 1, 4, 1, 0, 0, 0, 0⟩,
   ⟨0x120, 1, 4, 1, 0, 0, 0, 0⟩,
   ⟨0x124, 1, 4, 1, 0xffff, 0xffff, 0, 0⟩,
   ⟨0x128, 1, 4, 1, 0, 0, 0, 0⟩,
   ⟨0x140, 5, 4, 1, 0, 0, 0xfffff, 0⟩,
   ⟨0x300, 1, 4, 1, 0, 0, 0xf0000, 0⟩,
   ⟨0x304, 1, 4, 1, 0xf0000, 0xf0000, 0, 0⟩,
   ⟨0x308, 1, 4, 1, 0xff, 0xff, 0, 0⟩,
   ⟨0x30c, 1, 4, 1, 0, 0, 0, 0⟩] ++
  [⟨0x310, 1, 4, 1, 0, 0, 0, 0⟩,
   ⟨0x314, 1, 4, 1, 0, 0, 0, 0⟩,
   ⟨0x318, 1, 8, 2, 0xfffff, 0xfffff, 0, 0⟩,
   ⟨0x320, 4, 4, 1, 0xfffff, 0xfffff, 0, 0⟩,
   ⟨0x330, 1, 4, 1, 0xf8000, 0xf8000, 0, 0xf8000⟩]

/-- The registers of a signal (R246). -/
def sigRows : List RegRow :=
  [⟨0, 1, 4, 1, 0xffffc, 0xffffc, 0, 0⟩,
   ⟨4, 1, 4, 1, 0xfffff, 0xfffff, 0, 0⟩,
   ⟨8, 1, 4, 1, 0xfffff, 0xfffff, 0, 0⟩,
   ⟨0xc, 1, 4, 1, 0xfffff, 0xfffff, 0, 0⟩]

/-- The registers of a harp channel (R247). -/
def chRows : List RegRow :=
  [⟨0, 1, 4, 1, 0x300, 0x300, 0, 0x200⟩,
   ⟨4, 1, 4, 1, 0, 0, 0, 0⟩,
   ⟨8, 1, 4, 1, 0, 0, 0xc000, 0⟩,
   ⟨0xc, 1, 4, 1, 0, 0, 0, 0⟩,
   ⟨0x10, 1, 4, 1, 0, 0, 0, 0⟩,
   ⟨0x14, 1, 4, 1, 0, 0, 0, 0⟩]

/-- The registers of a course (R32, R299, R338, R439, R459). -/
def crsRows : List RegRow :=
  [⟨0, 1, 4, 1, 0, 0, 0x6000, 0⟩,
   ⟨4, 1, 4, 1, 0xff, 0xff, 0, 0⟩,
   ⟨8, 1, 4, 1, 0xf0000, 0xf0000, 0, 0⟩,
   ⟨0xc, 1, 4, 1, 0xffff, 0xffff, 0, 0x64⟩,
   ⟨0x10, 1, 4, 1, 0xfffff, 0xfffff, 0, 0x10000⟩,
   ⟨0x14, 1, 4, 1, 0x87fff, 0x87fff, 0, 0⟩,
   ⟨0x18, 1, 4, 1, 0xfffff, 0xfffff, 0, 0⟩,
   ⟨0x1c, 1, 4, 1, 0, 0, 0, 0⟩,
   ⟨0x20, 1, 4, 1, 0, 0, 0, 0⟩,
   ⟨0x24, 1, 4, 1, 0, 0, 0, 0⟩,
   ⟨0x28, 1, 4, 1, 0, 0, 0, 0⟩,
   ⟨0x40, 1, 4, 1, 0, 0, 0xff000, 0⟩,
   ⟨0x44, 1, 4, 1, 0xff000, 0xff000, 0, 0⟩,
   ⟨0x48, 1, 4, 1, 0, 0, 0, 0⟩,
   ⟨0x100, 1, 4, 1, 0, 0, 0, 0⟩,
   ⟨0x104, 1, 4, 1, 0xf8fff, 0xf8fff, 0, 0xa0280⟩] ++
  [⟨0x200, 8, 0x10, 1, 0xfcfff, 0xfcfff, 0, 0xf0100⟩,
   ⟨0x204, 8, 0x10, 1, 0, 0, 0, 0⟩,
   ⟨0x208, 8, 0x10, 1, 0, 0, 0, 0⟩,
   ⟨0x20c, 8, 0x10, 1, 0, 0, 0, 0⟩,
   ⟨0x280, 1, 4, 1, 0xff800, 0xff800, 0, 0x40000⟩,
   ⟨0x284, 1, 4, 1, 0x1ff, 0x1ff, 0x80000, 0x1c0⟩,
   ⟨0x288, 1, 4, 1, 0, 0, 0, 0x1c0⟩,
   ⟨0x28c, 1, 4, 1, 0xfffff, 0xfffff, 0, 0⟩,
   ⟨0x290, 1, 4, 1, 0, 0, 0, 0⟩,
   ⟨0x294, 1, 4, 1, 0, 0, 0, 0⟩,
   ⟨0x2a0, 8, 4, 1, 0, 0, 0, 0⟩,
   ⟨0x300, 8, 4, 1, 0x87fff, 0x87fff, 0, 0⟩,
   ⟨0x400, 11, 4, 1, 0, 0, 0x80000, 0⟩,
   ⟨0x500, 4, 4, 1, 0xff800, 0xff800, 0, 0⟩]

/-- The registers of a steering entry (R299). -/
def steerRows : List RegRow :=
  [⟨0, 1, 0x14, 5, 0xfffff, 0xfffff, 0, 0⟩,
   ⟨0x14, 1, 0x14, 5, 0xfffff, 0xfffff, 0, 0⟩,
   ⟨0x28, 1, 4, 1, 0xff800, 0xff800, 0, 0⟩,
   ⟨0x2c, 1, 4, 1, 0, 0, 0, 0⟩]

/-- The registers of a string (R339, R439). -/
def strRows : List RegRow :=
  [⟨0, 1, 4, 1, 0x40000, 0x40000, 0, 0⟩,
   ⟨4, 1, 4, 1, 0, 0, 0x4000, 0xff⟩,
   ⟨8, 1, 4, 1, 0x1ffff, 0x1ffff, 0, 0x1000⟩,
   ⟨0x40, 8, 4, 1, 0, 0, 0, 0⟩,
   ⟨0x60, 8, 4, 1, 0, 0, 0, 0⟩,
   ⟨0x80, 8, 4, 1, 0, 0, 0, 0⟩,
   ⟨0x100, 8, 4, 1, 0xf8000, 0xf8000, 0, 0⟩,
   ⟨0x120, 1, 4, 1, 0, 0, 0, 0⟩]

/-- The registers of the dump engine and the legacy window (R438). -/
def dmpRows : List RegRow :=
  [⟨0, 1, 4, 1, 0x8000f, 0x8000f, 0, 0⟩,
   ⟨4, 1, 4, 1, 0, 0, 0x80000, 0⟩,
   ⟨8, 1, 0x10, 4, 0xfffff, 0xf, 0, 0⟩,
   ⟨0x18, 1, 4, 1, 0, 0, 0, 0⟩,
   ⟨0x1c, 1, 4, 1, 0xffff, 0xffff, 0, 0⟩,
   ⟨0x20, 1, 4, 1, 0, 0, 0, 0⟩,
   ⟨0x24, 1, 0x10, 4, 0, 0, 0, 0⟩,
   ⟨0x34, 1, 4, 1, 0, 0, 0, 0⟩,
   ⟨0x38, 1, 4, 1, 0, 0, 0, 0⟩,
   ⟨0x40, 1, 4, 1, 0, 0, 0xe0000, 0⟩,
   ⟨0x44, 1, 4, 1, 0xe0000, 0xe0000, 0, 0⟩,
   ⟨0x100, 1, 4, 1, 0x80fff, 0x80fff, 0, 0⟩,
   ⟨0x104, 1, 0xc, 3, 0, 0, 0, 0⟩,
   ⟨0x110, 1, 4, 1, 0, 0, 0, 0⟩]

/-- The registers of the panel (R533). -/
def pnlRows : List RegRow :=
  [⟨0, 1, 4, 1, 0x8ff00, 0x8ff00, 0, 0x1400⟩,
   ⟨4, 1, 4, 1, 0x3fff, 0x3fff, 0, 0x7d0⟩,
   ⟨8, 1, 4, 1, 0, 0, 0, 0⟩,
   ⟨0xc, 1, 4, 1, 0, 0, 0, 0⟩,
   ⟨0x10, 1, 4, 1, 0xfffff, 0xfffff, 0, 0x500a0⟩,
   ⟨0x14, 1, 4, 1, 0, 0, 0, 0⟩,
   ⟨0x20, 4, 4, 1, 0, 0, 0, 0⟩,
   ⟨0x40, 1, 4, 1, 0, 0, 0xf0000, 0⟩,
   ⟨0x44, 1, 4, 1, 0xf0000, 0xf0000, 0, 0⟩,
   ⟨0x48, 1, 4, 1, 0, 0, 0, 0⟩,
   ⟨0x4c, 1, 4, 1, 0, 0, 0, 0⟩,
   ⟨0x50, 1, 0x14, 5, 0, 0, 0, 0⟩,
   ⟨0x100, 32, 4, 1, 0xefff7, 0xefff7, 0, 0⟩,
   ⟨0x200, 12, 4, 1, 0xf07ff, 0xf07ff, 0, 0x80⟩]

/-- The registers of the identity, interrupt summary, nut, TDC and host blocks. -/
def absLowRows : List RegRow :=
  [⟨0, 1, 4, 1, 0, 0, 0, 0x2416⟩,
   ⟨4, 1, 4, 1, 0, 0, 0, 0x10⟩,
   ⟨8, 1, 0x10, 4, 0, 0, 0, 0⟩,
   ⟨0x20, 1, 4, 1, 0, 0, 0, 0⟩,
   ⟨0x24, 1, 4, 1, 0xfffff, 0xfffff, 0, 0⟩,
   ⟨0x28, 1, 4, 1, 0xc0000, 0xc0000, 0, 0⟩,
   ⟨0x30, 1, 4, 1, 0x80000, 0x80000, 0, 0⟩,
   ⟨0x40, 1, 4, 1, 0, 0, 0, 0⟩,
   ⟨0x44, 1, 4, 1, 0xf, 0xf, 0, 0⟩,
   ⟨0x48, 1, 4, 1, 0, 0, 0x80000, 0⟩,
   ⟨0x400, 1, 0x10, 4, 0, 0, 0, 0⟩,
   ⟨0x410, 1, 4, 1, 0, 0, 0xfffff, 0⟩,
   ⟨0x414, 1, 4, 1, 0, 0, 0xfffff, 0⟩,
   ⟨0x418, 1, 4, 1, 0, 0, 0xfffff, 0⟩,
   ⟨0x41c, 1, 4, 1, 0, 0, 0, 0⟩,
   ⟨0x500, 1, 4, 1, 0x803ff, 0x803ff, 0, 0x800c8⟩] ++
  [⟨0x504, 1, 4, 1, 0, 0, 0, 0⟩,
   ⟨0x600, 66, 4, 1, 0, 0, 0x4000, 0x126⟩,
   ⟨0x800, 66, 4, 1, 0, 0, 0, 0⟩,
   ⟨0xa00, 66, 4, 1, 0, 0, 0, 0⟩,
   ⟨0xc00, 1, 4, 1, 0, 0, 0xfffff, 0⟩,
   ⟨0xc04, 1, 4, 1, 0xfffff, 0xfffff, 0, 0⟩,
   ⟨0xc08, 1, 4, 1, 0, 0, 0, 0⟩,
   ⟨0xd00, 8, 0x20, 1, 0x8001f, 0x8001f, 0, 0⟩,
   ⟨0xd04, 8, 0x20, 4, 0xfffff, 0xf, 0, 0⟩,
   ⟨0xd14, 8, 0x20, 1, 0, 0, 0, 0⟩,
   ⟨0xd18, 8, 0x20, 1, 0xfffff, 0xfffff, 0, 0⟩,
   ⟨0xe00, 8, 0x20, 1, 0x8000f, 0x8000f, 0, 0⟩,
   ⟨0xe04, 8, 0x20, 4, 0xfffff, 0xf, 0, 0⟩,
   ⟨0xe14, 8, 0x20, 1, 0xffff, 0xffff, 0, 0⟩,
   ⟨0xe18, 8, 0x20, 1, 0, 0, 0, 0⟩,
   ⟨0xe1c, 8, 0x20, 1, 0, 0, 0, 0⟩]

/-- The registers of the interrupt block (R444, R458). -/
def irqRows : List RegRow :=
  [⟨0x1000, 1, 4, 1, 0, 0, 0, 0⟩,
   ⟨0x1004, 1, 4, 1, 0x80000, 0x80000, 0, 0x80000⟩,
   ⟨0x1008, 1, 4, 1, 0, 0, 0, 0⟩,
   ⟨0x100c, 1, 4, 1, 0x80000, 0x80000, 0, 0x80000⟩,
   ⟨0x1010, 1, 4, 1, 0, 0, 0, 0⟩,
   ⟨0x1014, 1, 4, 1, 0x80000, 0x80000, 0, 0x80000⟩,
   ⟨0x1018, 1, 4, 1, 0, 0, 0, 0⟩,
   ⟨0x101c, 1, 4, 1, 0x80000, 0x80000, 0, 0x80000⟩,
   ⟨0x1020, 1, 4, 1, 0, 0, 0, 0⟩,
   ⟨0x1024, 1, 4, 1, 0xfff, 0xfff, 0, 0xfff⟩,
   ⟨0x1028, 1, 4, 1, 0, 0, 0, 0⟩,
   ⟨0x102c, 1, 4, 1, 0xfff, 0xfff, 0, 0xfff⟩,
   ⟨0x1030, 1, 4, 1, 0, 0, 0, 0⟩,
   ⟨0x1034, 1, 4, 1, 0xfff, 0xfff, 0, 0xfff⟩,
   ⟨0x1038, 1, 4, 1, 0, 0, 0, 0⟩,
   ⟨0x103c, 1, 4, 1, 0xfff, 0xfff, 0, 0xfff⟩] ++
  [⟨0x1040, 1, 4, 1, 0, 0, 0, 0⟩,
   ⟨0x1044, 1, 4, 1, 0xe00ff, 0xe00ff, 0, 0xe00ff⟩,
   ⟨0x1048, 1, 4, 1, 0, 0, 0, 0⟩,
   ⟨0x104c, 1, 4, 1, 0xe0000, 0xe0000, 0, 0xe0000⟩,
   ⟨0x1050, 1, 4, 1, 0, 0, 0xff00, 0⟩,
   ⟨0x1054, 1, 4, 1, 0xffff, 0xffff, 0, 0xffff⟩,
   ⟨0x1058, 1, 4, 1, 0, 0, 0, 0⟩,
   ⟨0x105c, 1, 4, 1, 0xfff, 0xfff, 0, 0xfff⟩,
   ⟨0x1060, 1, 4, 1, 0, 0, 0xc000, 0⟩,
   ⟨0x1064, 1, 4, 1, 0xfe000, 0xfe000, 0, 0xfe000⟩,
   ⟨0x1068, 1, 4, 1, 0, 0, 0, 0⟩,
   ⟨0x106c, 1, 4, 1, 0xc0000, 0xc0000, 0, 0xc0000⟩,
   ⟨0x1070, 1, 4, 1, 0, 0, 0, 0⟩,
   ⟨0x1074, 1, 4, 1, 0x80000, 0x80000, 0, 0x80000⟩,
   ⟨0x1078, 1, 4, 1, 0, 0, 0, 0⟩,
   ⟨0x107c, 1, 4, 1, 0x80000, 0x80000, 0, 0x80000⟩] ++
  [⟨0x1080, 1, 4, 1, 0, 0, 0, 0⟩,
   ⟨0x1084, 1, 4, 1, 0x80000, 0x80000, 0, 0x80000⟩,
   ⟨0x1088, 1, 4, 1, 0, 0, 0, 0⟩,
   ⟨0x108c, 1, 4, 1, 0x80000, 0x80000, 0, 0x80000⟩,
   ⟨0x1090, 1, 4, 1, 0, 0, 0, 0⟩,
   ⟨0x1094, 1, 4, 1, 0x1ff, 0x1ff, 0, 0x1ff⟩,
   ⟨0x1098, 1, 4, 1, 0, 0, 0, 0⟩,
   ⟨0x109c, 1, 4, 1, 0xf, 0xf, 0, 0xf⟩,
   ⟨0x1100, 16, 4, 1, 0, 0, 0, 0⟩,
   ⟨0x1140, 4, 4, 1, 0, 0, 0xffff, 0⟩,
   ⟨0x1180, 1, 4, 1, 0, 0, 0xf7800, 0⟩,
   ⟨0x1184, 1, 4, 1, 0xff800, 0xff800, 0, 0⟩,
   ⟨0x1190, 1, 4, 1, 0, 0, 0, 0⟩,
   ⟨0x1194, 1, 4, 1, 0xffff, 0xffff, 0, 0⟩,
   ⟨0x1198, 1, 4, 1, 0, 0, 0, 0⟩,
   ⟨0x119c, 1, 4, 1, 0, 0, 0, 0⟩] ++
  [⟨0x1800, 512, 4, 1, 0, 0, 0, 0⟩]

/-- The registers of configuration, power and temperature (R83, R481, R501, R543). -/
def cfgRows : List RegRow :=
  [⟨0x2000, 1, 4, 1, 0, 0, 0x400, 0x80000⟩,
   ⟨0x2004, 1, 4, 1, 0, 0, 0xf8000, 0⟩,
   ⟨0x2008, 1, 4, 1, 0xf8000, 0xf8000, 0, 0⟩,
   ⟨0x200c, 1, 4, 1, 0x70000, 0x70000, 0, 0⟩,
   ⟨0x2010, 1, 8, 2, 0, 0, 0, 0⟩,
   ⟨0x2018, 1, 4, 1, 0, 0, 0, 0⟩,
   ⟨0x201c, 1, 8, 2, 0, 0, 0, 0⟩,
   ⟨0x2024, 1, 4, 1, 0, 0, 0, 0⟩,
   ⟨0x2028, 1, 4, 1, 0, 0, 0, 0⟩,
   ⟨0x2030, 4, 8, 2, 0, 0, 0, 0⟩,
   ⟨0x2050, 1, 4, 1, 0x3f0ff, 0x3f0ff, 0, 0⟩,
   ⟨0x2054, 1, 8, 2, 0xfffff, 0xf, 0, 0⟩,
   ⟨0x205c, 1, 4, 1, 0x1ff, 0x1ff, 0, 0⟩,
   ⟨0x2080, 1, 4, 1, 0xfff, 0xfff, 0, 0x801⟩,
   ⟨0x2084, 1, 4, 1, 0, 0, 0, 0x801⟩,
   ⟨0x2088, 1, 4, 1, 0, 0, 0, 0x80000⟩] ++
  [⟨0x208c, 1, 4, 1, 0, 0, 0xf8000, 0⟩,
   ⟨0x2090, 1, 4, 1, 0xf8000, 0xf8000, 0, 0⟩,
   ⟨0x2094, 1, 4, 1, 0xffff, 0xffff, 0, 0x6973⟩,
   ⟨0x2098, 1, 4, 1, 0, 0, 0, 0⟩,
   ⟨0x209c, 1, 4, 1, 0, 0, 0x40000, 0x80000⟩,
   ⟨0x2100, 4, 4, 1, 0, 0, 0, 0⟩,
   ⟨0x2400, 256, 4, 1, 0xff, 0xff, 0, 0⟩]

/-- The registers of the key block (R520). -/
def keyRows : List RegRow :=
  [⟨0x114000, 32, 4, 1, 0, 0, 0, 0⟩,
   ⟨0x114080, 1, 4, 1, 0, 0, 0, 0⟩,
   ⟨0x114100, 13, 4, 1, 0, 0, 0, 0⟩]

/-- The one row of a tag area (R498). -/
def tagRows : List RegRow := [⟨0, 1, 16, 4, 0xfffff, 0xfffff, 0, 0⟩]

/-- Where an address lies: the rows of its block and its offset in the block (R508). The tag areas are taken at
their internal address (`Reg.tag`). -/
def regBlock (a : Nat) : Option (List RegRow × Nat) :=
  if a < 0x1000 then some (absLowRows, a)
  else if a < 0x2000 then some (irqRows, a)
  else if a < 0x3000 then some (cfgRows, a)
  else if a < 0x4000 then some (pnlRows, a - 0x3000)
  else if a < 0x5000 then
    if a ≥ 0x4100 ∧ (a - 0x4000) % 0x100 ≥ 0xC0 then none else some (tunRows, (a - 0x4000) % 0x100)
  else if a < 0x5100 then some (plkgRows, a - 0x5000)
  else if a < 0x5500 then some (edgeRows, (a - 0x5100) % 0x80)
  else if a < 0x6000 then none
  else if a < 0x7000 then some (pickRows, (a - 0x6000) % 0x200)
  else if a < 0x8000 then some (houseRows, a - 0x7000)
  else if a < 0x8300 then some (brgRows, a - 0x8000)
  else if a < 0x8380 then some (foutRows, (a - 0x8300) % 0x20)
  else if a < 0x8400 then some (brgRows, a - 0x8000)
  else if a < 0x8C00 then some (slotRows, (a - 0x8400) % 0x80)
  else if a < 0x9400 then some (fmuRows, (a - 0x8C00) % 0x100)
  else if a < 0xC000 then none
  else if a < 0x10000 then some (dmpRows, a - 0xC000)
  else if a < 0x10200 then some (harpRows, a - 0x10000)
  else if a < 0x10240 then some (sigRows, (a - 0x10200) % 0x10)
  else if a < 0x11000 then some (harpRows, a - 0x10000)
  else if a < 0x11C00 then some (chRows, (a - 0x11000) % 0x20)
  else if a < 0x40000 then none
  else if a < 0x70000 then some (portRows, (a - 0x40000) % 0x2000)
  else if a < 0x80000 then none
  else if 0x114000 ≤ a ∧ a < 0x114200 then some (keyRows, a)
  else if a < 0x180000 then
    let o := (a - 0x80000) % 0x40000
    if o < 0x1000 then some (crsRows, o)
    else if 0x4000 ≤ o ∧ o < 0x6000 then some (plkRows, (o - 0x4000) % 0x80)
    else if 0x8000 ≤ o ∧ o < 0x9000 then some (steerRows, (o - 0x8000) % 0x40)
    else if 0x10000 ≤ o ∧ o < 0x30000 ∧ (o - 0x10000) % 0x8000 < 0x400 then
      some (strRows, (o - 0x10000) % 0x8000)
    else none
  else if 0x1100000 ≤ a ∧ a < 0x11004F0 then some (tagRows, (a - 0x1100000) % 0x10)
  else none

/-- The word of a row that lies at an offset: its index from word 0 of its instance. -/
def RegRow.wordAt (r : RegRow) (o : Nat) : Option Nat :=
  if r.off ≤ o ∧ (o - r.off) / r.stride < r.count ∧ (o - r.off) % r.stride < 4 * r.words then
    some ((o - r.off) % r.stride / 4)
  else none

/-- The row and word at an offset of a block. -/
def findRow : List RegRow → Nat → Option (RegRow × Nat)
  | [], _ => none
  | r :: rs, o =>
    match r.wordAt o with
    | some w => some (r, w)
    | none => findRow rs o

/-- The register at an address, and which of its words (R506); none where no register is. -/
def regAt (a : Nat) : Option (RegRow × Nat) :=
  match regBlock a with
  | some (rows, o) => findRow rows o
  | none => none

/-- Word `w` of a multi-word value (R7). -/
def wordOf (v w : Nat) : Word := BitVec.ofNat 20 (v >>> (20 * w))

/-- The cold-reset values that differ between the instances of a block: TUN_CTRL of T0 (R58), PRT_I2C_MUX (R298) and
the signal parameters (R246). -/
def specialReset (a : Nat) : Option Nat :=
  if a = Reg.tunCtrl 0 then some 0x80000
  else if 0x40000 ≤ a ∧ a < 0x70000 ∧ (a - 0x40000) % 0x2000 = 0x20 then
    some (0x7000 + 2 ^ ((a - 0x40000) / 0x2000 % 6))
  else if a = Reg.harpSigSpc 0 then some (120 * 4096 + 24 * 16 + 4)
  else if a = Reg.harpSigSpc 1 then some (80 * 4096 + 40 * 16 + 4)
  else if a = Reg.harpSigSpc 2 then some (120 * 4096 + 48 * 16 + 4)
  else if a = Reg.harpSigSpc 3 then some (120 * 4096 + 48 * 16 + 4)
  else if a = Reg.harpSigSpc2 0 ∨ a = Reg.harpSigSpc2 1 then some (120 * 4096 + 154 * 16 + 4)
  else if a = Reg.harpSigSpc2 2 ∨ a = Reg.harpSigSpc2 3 then some (240 * 4096 + 154 * 16 + 4)
  else if a = Reg.harpSigLoop 0 ∨ a = Reg.harpSigLoop 1 then some (30 * 8192 + 10 * 128 + 25)
  else if a = Reg.harpSigLoop 2 ∨ a = Reg.harpSigLoop 3 then some (20 * 8192 + 10 * 128 + 25)
  else if a = Reg.harpSigThr 1 then some (152 * 4096 + 80 * 16 + 2)
  else if a = Reg.harpSigThr 0 ∨ a = Reg.harpSigThr 2 ∨ a = Reg.harpSigThr 3 then some (64 * 4096 + 80 * 16 + 8)
  else none

/-- The cold-reset value of the register word at an address (R14); 0 where no register is (R15). -/
def regReset (a : Nat) : Word :=
  match specialReset a with
  | some v => BitVec.ofNat 20 v
  | none =>
    match regAt a with
    | some (r, w) => wordOf r.rst w
    | none => 0

/-- The bits of a register word that a host write sets (R13, R15). -/
def regRwMask (a : Nat) : Word :=
  match regAt a with
  | some (r, w) => if a = Reg.tunCtrl 0 then 0x80000 else BitVec.ofNat 20 (if w + 1 = r.words then r.top else r.rw)
  | none => 0

/-- The bits of a register word that a host write of 1 clears (R13). -/
def regRc1Mask (a : Nat) : Word :=
  match regAt a with
  | some (r, _) => BitVec.ofNat 20 r.rc1
  | none => 0

/-- How many words the register at an address has, and the address of its word 0 (R506). -/
def regWords (a : Nat) : Nat × Nat :=
  match regAt a with
  | some (r, w) => (r.words, a - 4 * w)
  | none => (0, a)

end Sys2Proof.Machine
end

