-- ==== Sys2Proof/Machine/State.lean ====
section
/-! DEFINITION. The state of the RNK2416: every register, memory, queue, counter and pin the spec gives it, as plain
data, and the queue of waiting commands. Register words of BAR0 lie in one sparse map `regs`, keyed by their
address; what they cannot hold lies in a structure for each block. -/

namespace Sys2Proof.Machine


/-- What a step can stop with beside a refusal. -/
inductive Fault where
  /-- No definition raises it: every command completes or is refused. Safe. -/
  | impossible
  deriving DecidableEq, Repr

/-- What a command is refused for. -/
inductive Refusal where
  /-- A command that the model gives no meaning; raised by Dispatch alone. Safe. -/
  | notModelled (mnemonic : String)
  /-- A command whose address names no slot of its window (not a multiple of 4, or outside BAR0 or BAR2): no TLP carries
  it (R504, R510). Raised by the host accesses. Safe. -/
  | illFormed
  deriving DecidableEq, Repr

/-! ### Time (R37 to R61) -/

/-- A nut replica's standing (R39, R451, R452). -/
inductive Fence where
  /-- In service. -/
  | service
  /-- Failed its check: reloads on the next check tick. -/
  | fenced
  /-- Reloaded: rejoins after the check tick that passes. -/
  | reloaded
  /-- Hard-fenced (R452). -/
  | hard
  deriving DecidableEq, Repr

/-- A nut replica (R39): its deviation from the master, its fence, the check ticks it failed within 1 s. -/
structure Replica where
  dev   : Nut
  fence : Fence
  fails : List Nut
  deriving DecidableEq, Repr

/-- A commit of an anchor (R51); `seq` for the commit of a step sequence (R200). -/
structure Commit where
  kind   : BitVec 2
  seq    : Bool
  parent : Bool
  nut    : Nut
  val    : FullTime
  rate   : Rate
  deriving DecidableEq, Repr

/-- A program's TCMT that waits for its commit tick (R53, R354): its course, context and work item, DST, SF and commit. -/
structure ProgCommit where
  course : CourseId
  x      : CtxId
  item   : Nat
  dst    : BitVec 6
  sf     : Bool
  c      : Commit
  deriving DecidableEq, Repr

/-- What a tuning holds beside its registers: the host's crossing commit and the one behind it (R52), the programs'
deferred commits in arrival order (R53), the tick that its last commit took, and the values from before a smear (R60). -/
structure Tuning where
  host     : Option Commit
  hostNext : Option Commit
  progs    : List ProgCommit
  took     : Option Nut
  preOff   : FullTime
  preRate  : Rate
  preNut   : Nut
  deriving DecidableEq, Repr

/-- The leap logic (R59 to R61): whether the step, the end of the inserted second and the smears are still due, and the tick of
the last step, with whether it deleted a second. -/
structure Leap where
  stepDue   : Bool
  secDue    : Bool
  startDue  : Bool
  endDue    : Bool
  stepped   : Option (Nut × Bool)
  deriving DecidableEq, Repr

/-! ### TDC lines (R64 to R83) -/

/-- What a bin table's entries are built from. -/
inductive TableBody where
  /-- Never written: every entry reads 0. -/
  | blank
  /-- A linear table of span S (R74, R77). -/
  | linear (span : Nat)
  /-- A code-density table: the kept hits of each code. -/
  | hist (h : Sparse Nat)
  deriving DecidableEq, Repr

/-- A bin table with its header (R82). -/
structure BinTable where
  body   : TableBody
  gen    : BitVec 12
  span   : Nat
  qual   : Word
  maxbin : Nat
  temp   : Word
  ins    : Int
  swap   : Nut
  deriving DecidableEq, Repr

/-- A TDC line (R64): its two tables, the histogram in progress, the 65,536-hit batch of R80, the last accepted stamp,
the capture ticks of its latest real events, the hits (window and code) that no verdict has kept or withheld yet (R69), the window of its
latest hit (R70), the table and the NUT_TDC_LS word before its last swap (R67, R75), and the span of its last passing table. -/
structure Line where
  t0     : BinTable
  t1     : BinTable
  hist   : Sparse Nat
  kept   : Nat
  batch  : Sparse Nat
  batchN : Nat
  last   : Option Nut
  caps   : List Nut
  pend   : List (Nut × Nat)
  hitAt  : Option Nut
  out    : BinTable
  was    : Word
  passS  : Nat
  deriving DecidableEq, Repr

/-! ### Picks, FMUs and house channels (R108 to R130, R167) -/

/-- A gate and its regression sums (R121 to R124). -/
structure Gate where
  opn   : Nut
  auto  : Bool
  len   : Nat
  presc : Nat
  first : Option Nut
  slot  : Option Nat
  edges : Nat
  n     : Nat
  sm    : Nat
  smm   : Nat
  sx    : Nat
  smx   : Nat
  slip  : Bool
  los   : Bool
  calw  : Bool
  deriving DecidableEq, Repr

/-- A closed gate whose result is not written yet. -/
structure ClosedGate where
  gate : Gate
  cls  : Nut
  long : Bool
  deriving DecidableEq, Repr

/-- A stamp that waits in an interval unit (R119). -/
structure IvlStamp where
  t    : Nut
  seq  : BitVec 12
  word : Word
  calw : Bool
  deriving DecidableEq, Repr

/-- A pick: its queue of five-word entries, the loss waiting to be shown as OVF, SEQ, the active edges until the next
passed one, the last passed edge and the tick of the enable, the last accepted stamp, its count of WR, its gate and
closed gates, and its interval unit's stops and starts. -/
structure Pick where
  queue   : List (BitVec 100)
  ovf     : Bool
  seq     : BitVec 12
  skip    : Nat
  seen    : Option Nut
  enAt    : Nut
  last    : Option Nut
  old     : Option Word
  wr      : BitVec 16
  rd      : BitVec 16
  gate    : Option Gate
  closed  : List ClosedGate
  stops   : List IvlStamp
  starts  : List IvlStamp
  deriving DecidableEq, Repr

/-- A frequency measurement unit (R167, R168). -/
structure Fmu where
  skip   : Nat
  seen   : Option Nut
  enAt   : Nut
  last   : Option Nut
  gate   : Option Gate
  closed : List ClosedGate
  deriving DecidableEq, Repr

/-- A rising edge of an output that HC0 captures on a later tick (R66, R127): the output, the intended time, the capture tick and the
code. -/
structure Hc0Capture where
  out      : OutId
  intended : Nut
  nc       : Nut
  code     : Code
  deriving DecidableEq, Repr

/-- The house channels and the edge outputs' loopback calibration (R127, R128, R158), the edges HC0 has yet to capture, and the tick of
the last touch slot's end. -/
structure House where
  heldSel : Option Nat
  calOut  : Option OutId
  calLast : Nat
  calWait : List OutId
  calN    : Nat
  calSum  : Int
  calFrom : Nut
  due     : List Hc0Capture
  touchAt : Option Nut
  deriving DecidableEq, Repr

/-! ### Plucks (R131 to R160) -/

/-- What an arm takes (R134). -/
structure PluckCfg where
  ctrl  : Word
  dest  : Word
  tgt   : FullTime
  per   : W60
  arg0  : Word
  arg1  : Word
  width : BitVec 40
  deriving DecidableEq, Repr

/-- A request that crosses to the time island (R134), and for an ARMP its context, work item, DST and SF (R344). -/
structure PluckReq where
  arm    : Bool
  disarm : Bool
  cfg    : PluckCfg
  armp   : Option (CtxId × Nat × BitVec 6 × Bool)
  deriving DecidableEq, Repr

/-- A pluck beside its registers: the crossing request and the one behind it, the configuration and the target in force
in its own base (R142), and its mark for re-conversion (R148). -/
structure Pluck where
  pend : Option PluckReq
  next : Option PluckReq
  cfg  : PluckCfg
  tgt  : FullTime
  mark : Bool
  deriving DecidableEq, Repr

/-- A pulse whose leading edge has left, or would have but for a squelch (R154, R204): its trailing tick, the fine code, the
intended time of its trailing edge, whether it is low (POL), and whether it is suppressed. -/
structure Pulse where
  off  : Nut
  fine : Nat
  x    : Nut
  low  : Bool
  sup  : Bool
  deriving DecidableEq, Repr

/-- An edge pluck and its output: the pluck, the running pulse, the tick of the last leading edge that left (R530), and
what squelches the output for a time (R200, R201), and the leading edges of the last 3 s that were lost, newest first (R211). -/
structure Edge where
  pluck : Pluck
  pulse : Option Pulse
  lead  : Option Nut
  step  : Bool
  unseq : Option Nut
  lostX : List Nut
  deriving DecidableEq, Repr

/-- A start request of a general pluck (R144). -/
structure StartReq where
  pluck : PluckId
  nut   : Nut
  entry : Word
  arg1  : Word
  deriving DecidableEq, Repr

/-! ### Power, resets, crossings and JTAG (R460 to R481, R540 to R558) -/

/-- How far the device has come out of cold reset (R473). -/
inductive Phase where
  /-- Every domain is held in reset. -/
  | held
  /-- The PLL has locked; the nut starts on the next tick. -/
  | locked
  /-- The nut runs. -/
  | up
  deriving DecidableEq, Repr

/-- The selected JTAG instruction (R551). -/
inductive JtagInstr where
  | idcode | extest | sample | bypass | devrst
  deriving DecidableEq, Repr

/-- A crossing (R465, R466, R468). -/
structure Crossing where
  void : Bool
  lost : Bool
  deriving DecidableEq, Repr

/-- Power and resets: the phase, the levels of RST_N and PERST_N, what holds the host domain beside PERST_N, the domain
in transition, the supply monitors' counts of samples below and above, JTAG and the boundary-scan register. -/
structure Power where
  phase    : Phase
  rstLow   : Bool
  perstLow : Bool
  loIn     : Bool
  trans    : Option (DomainId × Bool)
  below    : Vector Nat 11
  above    : Vector Nat 11
  jtag     : JtagInstr
  bsr      : List Bool
  xing     : Vector Crossing 56
  deriving DecidableEq, Repr

/-- An error record to be written (R456): CODE, ACTION, UNIT, INDEX and the two detail words. -/
structure ErrRec where
  code   : Nat
  action : Nat
  unit   : Nat
  index  : Nat
  d1     : Word
  d2     : Word
  deriving DecidableEq, Repr

/-- The interrupt and fault logic beside its registers: the last context-fault record of each course (R449), the records lost
since the last one written (R456), and this tick's records, which are written at its end in the order of R449. -/
structure IrqLog where
  ctxAt : Vector (Option Nut) 4
  lost  : Nat
  due   : List ErrRec
  deriving DecidableEq, Repr

/-- What a hold-and-flag transfer of the host or a program carries (R462): a tuning commit, an arm or a disarm of a pluck, a write of
the counter register at an address (R431), a program's TCMT (R354). -/
inductive Xfer where
  | commit (t : TunId)
  | gen (g : PluckId)
  | edge (o : OutId)
  | cnt (a : Nat)
  | prog (t : TunId) (x : CtxId)
  deriving DecidableEq, Repr

/-! ### Panel (R521 to R532) -/

/-- A debouncer: its debounced level and the run of samples that disagree with it (R277, R521, R525). -/
structure Deb where
  level : Bool
  run   : Nat
  deriving DecidableEq, Repr

/-- A key: its run of disagreeing samples and the sample that queued its KEY_DOWN while LONG is due (R521, R522). -/
structure Key where
  run  : Nat
  down : Option Nut
  deriving DecidableEq, Repr

/-- A touch pad's runs, and whether its baseline is set (R523, R524). -/
structure Pad where
  onRun  : Nat
  offRun : Nat
  bad    : Nat
  based  : Bool
  deriving DecidableEq, Repr

/-- The panel: its event queue (five words an entry), the loss waiting to be shown as OVF, and its debouncers. -/
structure Panel where
  queue  : List (BitVec 100)
  ovf    : Bool
  keys   : Vector Key 8
  pads   : Vector Pad 4
  antO   : Deb
  antS   : Deb
  mods   : Vector Deb 24
  deriving DecidableEq, Repr

/-- The panel after cold reset (R532). -/
def Panel.cold : Panel :=
  { queue := [], ovf := false, keys := Vector.replicate 8 { run := 0, down := none },
    pads := Vector.replicate 4 { onRun := 0, offRun := 0, bad := 0, based := false },
    antO := { level := false, run := 0 }, antS := { level := false, run := 0 },
    mods := Vector.replicate 24 { level := false, run := 0 } }


/-! ### Bridge (R161 to R215) -/

/-- A reference slot (R161 to R183): the tick its source was named, the tick its sample timeout runs from, the accepted
phase samples (NM, d) and gate results (opening, closing, Y), newest first, the instants of its last 16 samples, the
run of outliers, the recovery run (NM, d, MPD), the last eight MPD values, its running timer, hold-off and SUSPECT clearing, whether
its hold-off expired, whether a timer has expired on this tick (R172), whether it has been AVAILABLE, and its route change with the sums of the cross-check. -/
structure Slot where
  cfgAt   : Nut
  fedAt   : Nut
  got     : Bool
  win     : List (Nut × Int)
  gates   : List (Nut × Nut × Int)
  recent  : List Nut
  outs    : Nat
  run     : List (Nut × Int × Option Nat)
  mpds    : List Nat
  timer   : Option Nut
  hold    : Option Nut
  susp    : Option Nut
  expired : Bool
  due     : Bool
  been    : Bool
  route   : Option Nut
  xref    : Option SlotId
  xSum    : Int
  xN      : Nat
  gSum    : Int
  gN      : Nat
  deriving DecidableEq, Repr

/-- An exact quotient. -/
structure Frac where
  num : Int
  den : Nat
  deriving DecidableEq, Repr

/-- Selection, the loop and the holdover model (R173 to R200): T0's rates newest first, the state the switch left, whether
a reference has been tracked and the last slot tracked, the settle samples, r_f and its residue, I, Φ, P and Qc, frequency
only (R560), the latest d, |d − Φ| of R197, the sums of the second in progress, the stored seconds newest first, what
HOLDOVER froze, the status kept after holdover (R198), the step sequence with the host's held writes (R200), the last update
tick treated, what the rounding of T0's A_v has left, in 10⁻¹⁴ of 2⁻²² ns (R187), and whether selection runs at the end of the
tick, with whether a rank changed (R172). -/
structure Bridge where
  rates   : List (Nut × Rate)
  origin  : Nat
  tracked : Bool
  lastRs  : Option SlotId
  settle  : List Int
  rf      : Int
  res     : Int
  integ   : W60
  phi     : W60
  p       : W60
  qc      : W60
  fonly   : Bool
  lastD   : Int
  e0      : Nat
  accI    : Int
  accN    : Nat
  accBad  : Bool
  secs    : List (Nut × Int)
  hoR     : Frac
  hoA     : Frac
  hoTc    : Nut
  hoAt    : Nut
  hoE0    : Nat
  hoKeep  : Bool
  stepAt  : Option Nut
  stepQ   : Option Nut
  stepped : Bool
  held    : List (Nat × Word)
  updAt   : Option Nut
  ancRes  : Int
  selDue  : Option Bool
  deriving DecidableEq, Repr

/-- A synthesiser of the FOUT design (R205, R208): M' in 2⁻⁴⁸, and the carried residue of its rounding. -/
structure Synth where
  mp  : Nat
  res : Int
  deriving DecidableEq, Repr

/-- The clock of a FOUT (R204, R205): its phase in 2⁻⁴⁸ of a reference cycle, of DIV × 2⁴⁸ in a period, and whether the output is
gated. -/
structure FoutClk where
  acc   : Nat
  gated : Bool
  deriving DecidableEq, Repr

/-- An IRIG-B frame on an output (R209): its on-time tick and fine code, its on-time point, its elements (0, 1, 2 for a
marker), the next edge of the 200, whether the pad is active, and whether its active level is low (POL). -/
structure IrigFrame where
  at_  : Nut
  fine : Nat
  x    : Nut
  el   : List Nat
  edge : Nat
  high : Bool
  low  : Bool
  deriving DecidableEq, Repr

/-- A time-of-day UART (R211 to R213): the on-time point of the second last treated, the last record and when it ends, and
whether a step commit to T0 fell since the last record. -/
structure Tod where
  sec   : Option Nut
  sent  : List Byte
  until_ : Nut
  step  : Bool
  deriving DecidableEq, Repr

/-- A slot after cold reset. -/
def Slot.cold : Slot :=
  { cfgAt := 0, fedAt := 0, got := false, win := [], gates := [], recent := [], outs := 0, run := [], mpds := [],
    timer := none, hold := none, susp := none, expired := false, due := false, been := false, route := none, xref := none, xSum := 0,
    xN := 0, gSum := 0, gN := 0 }

/-- Selection and the loop after cold reset (R175, R214). -/
def Bridge.cold : Bridge :=
  { rates := [(0, 0)], origin := 0, tracked := false, lastRs := none, settle := [], rf := 0, res := 0, integ := 0, phi := 0,
    p := 0, qc := 0, fonly := false, lastD := 0, e0 := 0, accI := 0, accN := 0, accBad := true, secs := [],
    hoR := { num := 0, den := 1 }, hoA := { num := 0, den := 1 }, hoTc := 0, hoAt := 0, hoE0 := 0, hoKeep := false,
    stepAt := none, stepQ := none, stepped := false, held := [], updAt := none, ancRes := 0, selDue := none }

/-- A FOUT whose clock stands (R206). -/
def FoutClk.cold : FoutClk := { acc := 0, gated := true }

/-- A synthesiser at rest. -/
def Synth.cold : Synth := { mp := 0, res := 0 }

/-- A time-of-day UART that has sent nothing. -/
def Tod.cold : Tod := { sec := none, sent := [], until_ := 0, step := false }


/-! ### Courses, strings and contexts (R300 to R372) -/

/-- The flags of a context (R312, R321, R324). -/
structure Flags where
  z : Bool
  n : Bool
  c : Bool
  v : Bool
  e : Bool
  t : Bool
  l : Bool
  deriving DecidableEq, Repr

/-- The state of a context (R306). -/
inductive CtxMode where
  | idle | run | stall | wait | halted
  deriving DecidableEq, Repr

/-- Why a context is in STALL (R303, R304, R306): its result crosses back; one of its own sends or crypto jobs must
complete; the send of the slot it stores to must; its course's nut replica is fenced; its TCMT waits for a commit tick; its ARMP for an arm tick. -/
inductive Stall where
  | result | own | slot | fence | commit | arm
  deriving DecidableEq, Repr

/-- What a context in WAIT waits for (R318, R321, R323). -/
structure Waiting where
  mask     : BitVec 14
  deadline : Option Nut
  dst      : BitVec 6
  deriving DecidableEq, Repr

/-- A completion: a CRYPTO or a SEND event with its arrival tick and its wake record (R322, R323). -/
structure Done where
  at_    : Nut
  crypto : Bool
  status : Nat
  slot   : Bool
  tag    : BitVec 12
  t      : Nut
  tg     : Bool
  calw   : Bool
  perNom : Bool
  gen    : BitVec 8
  late   : Nat
  deriving DecidableEq, Repr

/-- A context (R305 to R326): its state, privilege, PC, registers, flags, PW, call stack, the receive slot it owns, the
instructions since its dispatch or last wake, its wait, its queued completions, its outstanding sends and jobs, which
work item it runs, and its ephemeral keys (R367; none: cleared). -/
structure Ctx where
  mode    : CtxMode
  stall   : Stall
  sys     : Bool
  pc      : BitVec 15
  g       : Vector Word 64
  fl      : Flags
  pw      : Word
  stack   : List (BitVec 15)
  slot    : Option Nat
  issued  : Nat
  waiting : Option Waiting
  done    : List Done
  sends   : Nat
  jobs    : Nat
  item    : Nat
  e0      : Option (List Byte)
  e1      : Option (List Byte)
  deriving DecidableEq, Repr

/-- A crypto dispatch (R365): the operation (0 SIVS, 1 SIVO, 2 CMAC, 3 HMAC), its operand block, MODE, IMM, PW and its
context's work item. -/
structure Job where
  x    : CtxId
  item : Nat
  op   : Nat
  blk  : List Word
  mode : BitVec 4
  imm  : Word
  pw   : Word
  deriving DecidableEq, Repr

/-- A key slot's key: KIND and its bytes (R517). -/
structure SlotKey where
  kind  : Nat
  bytes : List Byte
  deriving DecidableEq, Repr

/-- A crypto lane: its job with the key it read when it started (R365). -/
structure Lane where
  job : Option Job
  key : Option SlotKey
  deriving DecidableEq, Repr

/-- A send (R292, R357): who sent it (a context's work item, or entry e of a transmit ring), its slot and
whether the slot came with it (R358), its port, length, kind (0
plain, 1 one-step, 2 launch-time), stamp spec, flags, tag and target. -/
structure Send where
  course : CourseId
  x      : Option (CtxId × Nat)
  ring   : Option (RingId × Nat)
  slot   : Nat
  own    : Bool
  port   : PortId
  len    : Nat
  kind   : Nat
  spec   : List Word
  report : Bool
  notify : Bool
  tag    : BitVec 32
  target : Nut
  deriving DecidableEq, Repr

/-- A send that has ended, with its completion (R293). -/
structure Sent where
  send : Send
  d    : Done
  deriving DecidableEq, Repr

/-- A punt record that waits for the DMA engine (R290, R512). -/
structure Punt where
  ring  : RingId
  desc  : Vector Word 12
  frame : List Byte
  slot  : Option Nat
  deriving DecidableEq, Repr

/-- A course beside its registers: its class queues and, for each PRIO, the class served last, its start queue and host start, the
receive slots taken and the slots with a send outstanding, its waiting jobs and its lanes, its ended sends, its punts,
its program table, data SRAM and packet buffer, the capture tick of the frame stored in each slot (R451), the tick of its DRAIN, and whether an aborted load sends it to ROM (R493). -/
structure Course where
  classes : Vector (List (Vector Word 12)) 8
  turn    : Vector Nat 4
  startQ  : List StartReq
  hostReq : Bool
  used    : List Nat
  sending : List Nat
  jobs    : List Job
  lanes   : Vector Lane 8
  sent    : List Sent
  punts   : List Punt
  prog    : Memory 20
  data    : Memory 20
  buf     : Memory 8
  capAt   : Sparse Nut
  drainAt : Option Nut
  toRom   : Bool
  deriving DecidableEq, Repr

/-! ### Ports (R273 to R299) -/

/-- A frame in the fill stage or the transmit pipeline of a port (R87 to R102): its send, its bytes as they leave, and what
its completion carries; `conv` is the departure that is yet to be converted on this tick (R97). -/
structure Filling where
  send  : Send
  bytes : List Byte
  d     : Done
  conv  : Option Nut
  deriving DecidableEq, Repr

/-- A message on a module I2C bus (R278): the address, the bytes written, and how many are read after them. -/
structure I2cMsg where
  addr : Nat
  put  : List Byte
  get  : Nat
  deriving DecidableEq, Repr

/-- The command that runs on a module I2C bus (R278): its port, the messages of its transaction in order, and whether the bus runs at
400 kHz. -/
structure I2cRun where
  port : PortId
  msgs : List I2cMsg
  fast : Bool
  deriving DecidableEq, Repr

/-- The totals of a bandwidth window (R426). -/
structure BwSums where
  rxB : Nat
  rxF : Nat
  txB : Nat
  txF : Nat
  deriving DecidableEq, Repr

/-- A port: the transmit queues of the courses and the one served last (R292), its armed launch plucks in arm order (R152),
the frames in its launch stage and those that depart (R294), its fill stage and pipeline, a signalled link fault (R275), a hold by a
hard-fenced replica (R452), the ends of its fret windows already treated (R91), its UI and word counts (R85), its bandwidth window, and from where its
windows count (R426). -/
structure PortSt where
  queues  : Vector (List Send) 4
  turn    : Nat
  launch  : List Send
  stage   : List Send
  depart  : List Send
  fill    : List Filling
  fault   : Bool
  held    : Bool
  rxWin   : Nut
  txWin   : Nut
  rxUi    : Nat
  txWord  : Nat
  sums    : BwSums
  bwFrom  : Nut
  deriving DecidableEq, Repr

/-- A transmit ring: completions waiting to be written, as entry and bytes 16 to 31, and the entries completed (R515). -/
structure TxRing where
  wait : List (Nat × List Byte)
  comp : List Nat
  deriving DecidableEq, Repr

/-- A counter (R420). -/
structure Counter where
  val : BitVec 60
  ovf : Bool
  deriving DecidableEq, Repr

/-- A write of a counter register on its way to the time island (R431): the counters it clears, the word in force until its effect
tick, the word it carries, the tick it arrives (none: the crossing is void), and the word that waits behind it. -/
structure CntReq where
  cnts : List Nat
  old  : Word
  val  : Word
  at_  : Option Nut
  next : Option Word
  deriving DecidableEq, Repr

/-- Flags of a new work item. -/
def Flags.clear : Flags := { z := false, n := false, c := false, v := false, e := false, t := false, l := false }

/-- A context after reset (R309, R338). -/
def Ctx.cold : Ctx :=
  { mode := .idle, stall := .result, sys := false, pc := 0, g := Vector.replicate 64 0, fl := Flags.clear, pw := 0,
    stack := [], slot := none, issued := 0, waiting := none, done := [], sends := 0, jobs := 0, item := 0, e0 := none,
    e1 := none }

/-- A lane with no job. -/
def Lane.cold : Lane := { job := none, key := none }

/-- A course after cold reset (R472): its memories' contents are lost. -/
def Course.cold : Course :=
  { classes := Vector.replicate 8 [], turn := Vector.replicate 4 7, startQ := [], hostReq := false, used := [], sending := [], jobs := [],
    lanes := Vector.replicate 8 Lane.cold, sent := [], punts := [], prog := Memory.lost, data := Memory.lost,
    buf := Memory.lost, capAt := [], drainAt := none, toRom := false }

/-- No bytes and no frames. -/
def BwSums.zero : BwSums := { rxB := 0, rxF := 0, txB := 0, txF := 0 }

/-- A port after cold reset. -/
def PortSt.cold : PortSt :=
  { queues := Vector.replicate 4 [], turn := 3, launch := [], stage := [], depart := [], fill := [], fault := false, held := false,
    rxWin := 0, txWin := 0, rxUi := 0, txWord := 0, sums := BwSums.zero, bwFrom := 0 }

/-- A transmit ring with nothing outstanding. -/
def TxRing.cold : TxRing := { wait := [], comp := [] }

/-! ### Harp (R216 to R272) -/

/-- A search request (R226), its fields resolved: the non-coherent count and the threshold are those of the request or of the
signal. -/
structure Search where
  sig    : Nat
  prn    : Nat
  window : Bool
  auto   : Bool
  aidlb  : Bool
  ch     : ChanId
  n      : Nat
  thr    : Nat
  kd     : Nat
  dopc   : Int
  codec  : Nat
  codew  : Nat
  reps   : Nat
  seq    : Nat
  deriving DecidableEq, Repr

/-- The search that runs (R227 to R229): its request, the pass it is at, whether it waits for a verification, and the passes it has
run (R245). -/
structure SearchRun where
  req    : Search
  pass   : Nat
  verify : Bool
  done   : Nat
  deriving DecidableEq, Repr

/-- Who asked for a small window: the search with this sequence number (R229), the upper-band channel of an aided search (R231), a
channel that reacquires (R240). -/
inductive WinFor where
  | search (seq : Nat)
  | aided (h : ChanId)
  | reacq (h : ChanId)
  deriving DecidableEq, Repr

/-- A signal in the sample stream: the sample position of a chip 0 of its primary code in 2⁻³² sample, and its Doppler in
2⁻¹⁶ Hz. -/
structure Peak where
  pos  : Nat
  dopp : Int
  deriving DecidableEq, Repr

/-- A small window (R229, R231): its threshold and non-coherent count, the peak under verification (none: it searches), the centre
of the search as its pass's first sample found it, the spacing of its bins in 2⁻¹⁶ Hz, the noise floor of the pass that found the
peak as a sum over cells, the verdicts of its dwells, and the times it has detected nothing. -/
structure Win where
  who    : WinFor
  sig    : Nat
  prn    : Nat
  thr    : Nat
  n      : Nat
  peak   : Option Peak
  centre : Peak
  step   : Int
  mu     : Nat × Nat
  votes  : List Bool
  tries  : Nat
  deriving DecidableEq, Repr

/-- The TLM word or the sync pattern that a navigation decoder waits behind (R260, R261): nothing found, a TLM word found whose data
are inverted or not, framing found. -/
inductive Framing where
  | search
  | tlm (inverted : Bool)
  | found
  deriving DecidableEq, Repr

/-- A tracking channel beside its registers (R233 to R265). Times are sample indices of the ends of its dumps. -/
structure Chan where
  /-- The Doppler of the last dump in 2⁻¹⁶ Hz, the loop's rate of it, and the carrier NCO's frequency (R218, R233, R234). -/
  dopp    : Int
  rate    : Int
  nco     : Int
  /-- The end of the last dump, where a code period begins, in 2⁻³² sample: the code NCO (R230, R233, R240). -/
  pos     : Nat
  /-- The last dump's fourteen correlators (R233), and the data component's prompt with its secondary code removed (R237). -/
  corr    : Dump
  sym     : Int × Int
  /-- AIDLB of the search that started it, until the aided search is queued (R231). -/
  aid     : Bool
  /-- The sample position at which it entered its state, and from which each timer of R235 runs, in 2⁻³² sample. -/
  since   : Nat
  pliLow  : Option Nat
  cn0Low  : Option Nat
  lastReq : Nat
  /-- Dumps that met the condition for TRACK (R235), the ratios of the last 20 dumps (R238), the dumps with a larger side
  correlator (R239), the prompts' powers over the last 1 s and the length of their dumps in ms (R238). -/
  good    : Nat
  plis    : List (Int × Nat)
  side    : Nat
  powers  : List Nat
  powMs   : Nat
  /-- The dumps since TRACK, the sign of the last prompt, the sign changes at each of the 20 positions, the window of prompt
  signs in progress, and the offsets at which the windows before it matched, with how many there were (R237). -/
  dumps   : Nat
  sign    : Bool
  edges   : List Nat
  signs   : List Bool
  offs    : List Nat
  hits    : Nat
  /-- In SYNC, the ms at `pos` since a bit or secondary code began, and since the first symbol of the data component (R234, R237,
  R262). -/
  phase   : Nat
  symMs   : Int
  /-- The tick on which ADR restarted, ADR as Doppler times samples in 2⁻⁴⁸, SLIP_CNT, and the half cycle of R257. -/
  lockAt  : Nut
  adr     : Int
  slips   : Nat
  halfOk  : Bool
  half    : Bool
  /-- The multipath estimator's accumulated correlators and their ms (R242). -/
  mpAcc   : List (Int × Int)
  mpMs    : Nat
  /-- The own count of ms since handover, the time of week in ms, TOT_SRC, TOT_ERR, and the last mismatch (R256, R263 to R265). -/
  own     : Nat
  tot     : Nat
  totSrc  : Nat
  totErr  : Bool
  totOff  : Option Nat
  /-- Navigation framing (R260, R261): what is found, D29* and D30*, the LNAV word last received, and the failures in a row. -/
  framing : Framing
  stars   : BitVec 2
  word    : Nat
  navBad  : Nat
  deriving DecidableEq, Repr

/-- What a channel latches at an epoch (R251, R255). -/
structure Latched where
  h      : ChanId
  cfg    : Word
  stat   : Word
  mp0    : Word
  mp1    : Word
  chan   : Chan
  deriving DecidableEq, Repr

/-- An accepted epoch (R250, R253, R259): N_e, MAP_VALID, s_e, MAP_SEQ and MAP_RES as HARP_MAP_RES holds them, N_ant for each
signal, and the channels. -/
structure Epoch where
  ne    : Nut
  valid : Bool
  se    : BitVec 80
  res   : Word
  ants  : List Nut
  chans : List Latched
  deriving DecidableEq, Repr

/-- The harp beside its registers: SI of the latest marker and whether a marker has come since CLK_OK rose, the markers since the
last fit of the map and their stamps, newest first (R221, R222), the tick of the last clock window (R219), SI at which each band's
last window ended (R220); the strum's queue, search, waiting and running windows, whether a main pass runs, SI of its first sample
and its length in ms; the channels; a request to commit at power-up (R476); whether an epoch fired on this tick (R250), the epoch
whose record is due, the last accepted epoch; and the harp memory (R249). -/
structure Harp where
  si        : Nat
  fresh     : Bool
  markN     : Nat
  marks     : List Nut
  clkWin    : Option Nut
  statU     : Option Nat
  statL     : Option Nat
  queue     : List Search
  run       : Option SearchRun
  wins      : List Win
  small     : List Win
  mainOn    : Bool
  passSi    : Nat
  passMs    : Nat
  chans     : Vector Chan 96
  sreqDue   : Bool
  epochDue  : Bool
  epoch     : Option Epoch
  lastEpoch : Option Nut
  mem       : Memory 20
  deriving DecidableEq, Repr

/-- No correlation. -/
def Dump.zero : Dump := { pilot := Vector.replicate 7 (0, 0), data := Vector.replicate 7 (0, 0) }

/-- A channel that has not started. -/
def Chan.cold : Chan :=
  { dopp := 0, rate := 0, nco := 0, pos := 0, corr := Dump.zero, sym := (0, 0), aid := false, since := 0, pliLow := none,
    cn0Low := none, lastReq := 0, good := 0, plis := [], side := 0, powers := [], powMs := 0, dumps := 0, sign := false,
    edges := List.replicate 20 0, signs := [], offs := [], hits := 0, phase := 0, symMs := 0, lockAt := 0, adr := 0, slips := 0,
    halfOk := false, half := false, mpAcc := List.replicate 7 (0, 0), mpMs := 0, own := 0, tot := 0, totSrc := 0,
    totErr := false, totOff := none, framing := .search, stars := 0, word := 0, navBad := 0 }

/-- The harp after cold reset (R244): its memory's contents are lost. -/
def Harp.cold : Harp :=
  { si := 0, fresh := true, markN := 0, marks := [], clkWin := none, statU := none, statL := none, queue := [], run := none,
    wins := [], small := [], mainOn := false, passSi := 0, passMs := 0, chans := Vector.replicate 96 Chan.cold, sreqDue := false,
    epochDue := false, epoch := none, lastEpoch := none, mem := Memory.lost }

/-! ### Configuration loader (R493) -/

/-- A course load in progress: its course, its GUARD and the flash's bytes. -/
structure LoadJob where
  course : CourseId
  guard  : Bool
  flash  : List Byte
  deriving DecidableEq, Repr


/-- The machine. -/
structure State where
  /-- The nut (R37) and whether it runs. -/
  nut      : Nut
  nutRun   : Bool
  replicas : Vector Replica 28
  power    : Power
  irq      : IrqLog
  /-- The transfers that have started to cross and have not taken effect, oldest first, each with its crossing (R462, R465). -/
  flight   : List (Fin 56 × Xfer)
  /-- The register words of BAR0, and the read and write shadows of multi-word registers (R506). -/
  regs     : Sparse Word
  /-- The register bits that the hardware has set on this tick (R13). -/
  setNow   : Sparse Word
  rdShadow : Sparse Word
  wrShadow : Sparse Word
  /-- The tick each course's speed window began on (R33). -/
  speedAt  : Vector Nut 4
  tunings  : Vector Tuning 16
  leap     : Leap
  lines    : Vector Line 66
  picks    : Vector Pick 8
  fmus     : Vector Fmu 8
  house    : House
  plucks   : Vector Pluck 256
  edges    : Vector Edge 8
  /-- The latest commit tick that joined the re-conversion pass (R160). -/
  reconvAt : Nut
  panel    : Panel
  /-- The bridge: slots, selection and loop; FOUT0 to FOUT3 and the SyncE synthesiser; the control-function bits latched
  for IRIG-B (R210), the frames on the outputs, and the time-of-day UARTs. -/
  slots    : Vector Slot 16
  bridge   : Bridge
  synths   : Vector Synth 5
  foutClk  : Vector FoutClk 4
  irigCf   : BitVec 27
  irig     : Vector (Option IrigFrame) 8
  tods     : Vector Tod 2
  /-- The contexts, the tick from which each string has issued nothing (R331), its context that issued last (R301) and the PC of its last issue, the courses, the client table (R360) and the
  words with an uncorrectable error: memory, unit and address (R454). -/
  ctxs     : Vector Ctx 128
  quiet    : Vector Nut 16
  lastIss  : Vector Nat 16
  lastPc   : Vector (BitVec 15) 16
  courses  : Vector Course 4
  client   : Memory 20
  bad      : List (MemKind × Nat × Nat)
  /-- The ports, the I2C command that each bus runs (R278), the rings, whether a receive ring has dropped records since its
  last punt (R512), the key slots (R517), and host memory as the device's own writes have left it. -/
  ports    : Vector PortSt 24
  i2cRun   : Vector (Option I2cRun) 4
  txRings  : Vector TxRing 8
  rxLost   : Vector Bool 8
  keys     : Sparse SlotKey
  hostMem  : Memory 8
  /-- The counters by number (R421), the snapshot bank as the words of its record (R428, R435), and whether records have been
  lost since the last one written (R434). -/
  counters : Sparse Counter
  /-- The counters at the start of this tick (R428), and the writes of counter registers that cross (R431). -/
  cntStart : Sparse Counter
  cntReq   : Sparse CntReq
  bank     : List Word
  dumpLost : Bool
  /-- The harp, and the course load that runs (R493); the SPI command that runs, as its WRITE and LEN (R495). -/
  harp     : Harp
  load     : Option LoadJob
  spi      : Option (Bool × Nat)
  /-- The model's own: how many free values a run has met (`Config.freeBits`). -/
  freeCtr  : Nat
  /-- The commands that wait, first in, first out. -/
  pending  : List Instr
  deriving DecidableEq, Repr


/-! ### Reset -/

/-- A bin table that holds nothing. -/
def BinTable.blank : BinTable :=
  { body := .blank, gen := 0, span := 0, qual := 0, maxbin := 0, temp := 0, ins := 0, swap := 0 }

/-- The linear start-up table (R77). -/
def BinTable.startUp (l : LineId) : BinTable :=
  { body := .linear 294, gen := 0, span := 294, qual := 0, maxbin := 557, temp := 0, ins := Config.ins0 l, swap := 0 }

/-- A line after cold reset (R77). -/
def Line.cold (l : LineId) : Line :=
  { t0 := BinTable.startUp l, t1 := BinTable.blank, hist := [], kept := 0, batch := [], batchN := 0,
    last := none, caps := [], pend := [], hitAt := none, out := BinTable.blank,
    was := 0, passS := 294 }

/-- A pick after cold reset. -/
def Pick.cold : Pick :=
  { queue := [], ovf := false, seq := 0, skip := 0, seen := none, enAt := 0, last := none, old := none, wr := 0,
    rd := 0, gate := none,
    closed := [], stops := [], starts := [] }

/-- An FMU after cold reset. -/
def Fmu.cold : Fmu := { skip := 0, seen := none, enAt := 0, last := none, gate := none, closed := [] }

/-- The house channels after cold reset. -/
def House.cold : House :=
  { heldSel := none, calOut := none, calLast := 7, calWait := [], calN := 0, calSum := 0, calFrom := 0,
    due := [], touchAt := none }

/-- A configuration of zeros. -/
def PluckCfg.zero : PluckCfg := { ctrl := 0, dest := 0, tgt := 0, per := 0, arg0 := 0, arg1 := 0, width := 0 }

/-- A disarmed pluck (R132). -/
def Pluck.cold : Pluck := { pend := none, next := none, cfg := PluckCfg.zero, tgt := 0, mark := false }

/-- An edge output after cold reset. -/
def Edge.cold : Edge :=
  { pluck := Pluck.cold, pulse := none, lead := none, step := false, unseq := none, lostX := [] }

/-- A tuning after cold reset: its anchor lies in its registers (R55). -/
def Tuning.cold : Tuning :=
  { host := none, hostNext := none, progs := [], took := none, preOff := 0, preRate := 0, preNut := 0 }

/-- The leap logic with no leap armed. -/
def Leap.cold : Leap := { stepDue := false, secDue := false, startDue := false, endDue := false, stepped := none }

/-- A replica that follows the master (R39). -/
def Replica.cold : Replica := { dev := 0, fence := .service, fails := [] }

/-- Power and resets in cold reset: no crossing has made its handshake (R466). -/
def Power.cold : Power :=
  { phase := .held, rstLow := false, perstLow := false, loIn := true, trans := none, below := Vector.replicate 11 0,
    above := Vector.replicate 11 0, jtag := .idcode, bsr := [],
    xing := Vector.replicate 56 { void := true, lost := false } }

/-- The fault log after cold reset. -/
def IrqLog.cold : IrqLog := { ctxAt := Vector.replicate 4 none, lost := 0, due := [] }


/-- The machine right after reset: in cold reset, before the time-island PLL locks (R470 to R473). Registers list
nothing: each reads its cold-reset value. -/
def State.reset : State :=
  { nut := 0, nutRun := false, replicas := Vector.replicate 28 Replica.cold, power := Power.cold,
    irq := IrqLog.cold, flight := [], regs := [], setNow := [], rdShadow := [], wrShadow := [],
    speedAt := Vector.replicate 4 0, tunings := Vector.replicate 16 Tuning.cold, leap := Leap.cold, lines := Vector.ofFn Line.cold,
    picks := Vector.replicate 8 Pick.cold, fmus := Vector.replicate 8 Fmu.cold, house := House.cold,
    plucks := Vector.replicate 256 Pluck.cold, edges := Vector.replicate 8 Edge.cold, reconvAt := 0,
    panel := Panel.cold,
    slots := Vector.replicate 16 Slot.cold, bridge := Bridge.cold, synths := Vector.replicate 5 Synth.cold, foutClk := Vector.replicate 4 FoutClk.cold, irigCf := 0,
    irig := Vector.replicate 8 none, tods := Vector.replicate 2 Tod.cold,
    ctxs := Vector.replicate 128 Ctx.cold, quiet := Vector.replicate 16 0, lastIss := Vector.replicate 16 7, lastPc := Vector.replicate 16 0, courses := Vector.replicate 4 Course.cold,
    client := Memory.lost, bad := [], ports := Vector.replicate 24 PortSt.cold, i2cRun := Vector.replicate 4 none,
    txRings := Vector.replicate 8 TxRing.cold, rxLost := Vector.replicate 8 false, keys := [], hostMem := Memory.lost,
    counters := [], cntStart := [], cntReq := [], bank := [], dumpLost := false,
    harp := Harp.cold, load := none, spi := none,
    freeCtr := 0, pending := [] }

end Sys2Proof.Machine
end

