-- ==== Sys2Proof/Machine/Ops.lean ====
section
/-! DEFINITION. The named operations over registers, vectors and free values, the fault log (R448, R449, R456), the
course-state, power and crossing helpers, and the gates that every host access passes (R474, R490). -/

namespace Sys2Proof.Machine

/-- A vector with one element replaced. -/
def vset {α : Type} {n : Nat} (v : Vector α n) (i : Fin n) (x : α) : Vector α n := v.set i.val x i.isLt

/-- `f` applied for each index, lowest first. -/
def foldFin {σ : Type} (n : Nat) (f : Fin n → σ → σ) (s : σ) : σ := (List.finRange n).foldl (fun t i => f i t) s

/-! ### Registers -/

/-- The register word at an address: what is listed, else its cold-reset value (R14). -/
def State.reg (s : State) (a : Nat) : Word := (Sparse.find s.regs a).getD (regReset a)

/-- The register word at an address set by the hardware. -/
def State.setReg (s : State) (a : Nat) (v : Word) : State :=
  { s with regs := Sparse.write (fun b => some (regReset b)) s.regs a v }

/-- A field of a register. -/
def State.rFld (s : State) (a lo len : Nat) : Nat := fld (s.reg a) lo len
/-- A signed field of a register. -/
def State.rSfld (s : State) (a lo len : Nat) : Int := sfld (s.reg a) lo len
/-- A bit of a register. -/
def State.rBit (s : State) (a n : Nat) : Bool := bitOf (s.reg a) n
/-- A field of a register replaced. -/
def State.setFld (s : State) (a lo len v : Nat) : State := s.setReg a (putFld (s.reg a) lo len v)
/-- The hardware sets bits of a register on this tick (R13). -/
def State.note (s : State) (a : Nat) (m : Word) : State :=
  { s with setNow := Sparse.write (fun _ => some 0) s.setNow a ((Sparse.find s.setNow a).getD 0 ||| m) }
/-- The bits of a register that a write of 1 clears: those of `v` that the hardware has not set on this tick (R13). -/
def State.rc1Of (s : State) (a : Nat) (v : Word) : Word := v &&& ~~~((Sparse.find s.setNow a).getD 0)
/-- A bit of a register replaced. -/
def State.setBit (s : State) (a n : Nat) (b : Bool) : State :=
  (s.note a (if b then putBit 0 n true else 0)).setReg a (putBit (s.reg a) n b)
/-- Bits of a register set: a cause. -/
def State.orReg (s : State) (a : Nat) (m : Word) : State := (s.note a m).setReg a (s.reg a ||| m)
/-- A saturating count advanced by `k`. -/
def State.addSat (s : State) (a k : Nat) : State := s.setReg a (satAdd (s.reg a) k)
/-- A count advanced by one, modulo 2²⁰. -/
def State.incReg (s : State) (a : Nat) : State := s.setReg a (s.reg a + 1)
/-- A field count advanced by one, modulo its width. -/
def State.incFld (s : State) (a lo len : Nat) : State := s.setFld a lo len (s.rFld a lo len + 1)

/-- The value of a multi-word register of `k` words from `a` on (R7). -/
def State.regN (s : State) (a : Nat) : Nat → Nat
  | 0 => 0
  | k + 1 => (s.reg a).toNat + 2 ^ 20 * s.regN (a + 4) k

/-- A multi-word register set. -/
def State.setRegN (s : State) (a : Nat) : Nat → Nat → State
  | 0, _ => s
  | k + 1, v => (s.setReg a (BitVec.ofNat 20 v)).setRegN (a + 4) k (v >>> 20)

/-- A two-word register as a signed 40-bit number. -/
def State.reg40 (s : State) (a : Nat) : BitVec 40 := BitVec.ofNat 40 (s.regN a 2)
/-- A three-word register. -/
def State.reg60 (s : State) (a : Nat) : BitVec 60 := BitVec.ofNat 60 (s.regN a 3)
/-- A four-word register: a nut value. -/
def State.reg80 (s : State) (a : Nat) : Nut := BitVec.ofNat 80 (s.regN a 4)
/-- A five-word register: a full time. -/
def State.reg100 (s : State) (a : Nat) : FullTime := BitVec.ofNat 100 (s.regN a 5)

/-- Every listed register word of [lo, hi) back at its cold-reset value (R472). -/
def State.clearRegs (s : State) (lo hi : Nat) : State := { s with regs := Sparse.clear s.regs lo hi }

/-! ### Free values -/

/-- A free value of `w` bits, and the state that has met it. -/
def State.free (s : State) (w : Nat) : BitVec w × State :=
  (Config.freeBits w s.freeCtr, { s with freeCtr := s.freeCtr + 1 })

/-! ### Power, courses and crossings -/

/-- PDd is on and out of its power-up reset (PWR_STAT.POWERED, R481). -/
def State.powered (s : State) (d : Nat) : Bool := s.rBit Reg.pwrStat d

/-- CRS_RUN.STATE codes (R334, R338). -/
abbrev CS.reset : Nat := 0
abbrev CS.rom : Nat := 1
abbrev CS.run : Nat := 2
abbrev CS.draining : Nat := 3
abbrev CS.drained : Nat := 4

/-- CRS_RUN.STATE of a course (R334). -/
def State.crsState (s : State) (c : Nat) : Nat := s.rFld (Reg.crsRun c) 15 3

/-- A course's state changed. -/
def State.setCrsState (s : State) (c v : Nat) : State := s.setFld (Reg.crsRun c) 15 3 v

/-- The home course of a port group takes frames: it is not in course reset, powered down or in the ROM monitor (R20). -/
def State.homeUp (s : State) (c : Nat) : Bool := s.crsState c != CS.reset && s.crsState c != CS.rom

/-- The crossing is void (R465). -/
def State.isVoid (s : State) (x : Fin 56) : Bool := (s.power.xing.get x).void

/-- A crossing is in VOID (R465). -/
def State.setVoid (s : State) (x : Fin 56) : State :=
  { s with power := { s.power with xing := vset s.power.xing x { s.power.xing.get x with void := true } } }

/-- A reset or a power-down puts a crossing into VOID, counted in IRQ_VOID_CNT when it was not void (R455, R465). -/
def State.voidX (s : State) (x : Fin 56) : State := if s.isVoid x then s else (s.setVoid x).addSat Reg.irqVoidCnt 1

/-- A transfer starts to cross (R462). -/
def State.depart (s : State) (x : Fin 56) (i : Xfer) : State := { s with flight := s.flight ++ [(x, i)] }

/-- A transfer has taken effect, or is discarded: it crosses no longer. -/
def State.land (s : State) (i : Xfer) : State := { s with flight := s.flight.filter fun e => e.2 != i }

/-- Which of a crossing's transfers had been copied when it becomes void: those that started first, as many as is open (R461, R462,
R465); and the state that has met the free value. -/
def State.copied (s : State) (x : Fin 56) : List Xfer × State :=
  let l := (s.flight.filter fun e => e.1 == x).map Prod.snd
  let (b, s1) := s.free 16
  (l.take (b.toNat % (l.length + 1)), s1)

/-! ### The fault log -/

/-- The tag area of a unit, or of its owner (R456, R498). Units: 1 course, 2 string, 3 port, 4 pick, 5 edge output,
6 slot, 7 bridge, 8 harp, 9 lane, 10 line, 12 context, else the device. -/
def tagOfUnit (unit index : Nat) : Nat :=
  match unit with
  | 1 => 1 + index % 4
  | 2 => 5 + index % 16
  | 3 => 21 + index % 24
  | 4 => 45 + index % 8
  | 5 => 53 + index % 8
  | 6 => 61 + index % 16
  | 7 => 77
  | 8 => 78
  | 9 => 1 + index / 8 % 4
  | 10 => if index < 48 then 21 + index % 24 else if index < 64 then 45 + (index - 48) / 2 else 0
  | 12 => 1 + index / 32 % 4
  | _ => 0

/-- The IRQ_FAULT bit of a fault code (R448, R458). -/
def faultBit (code : Nat) : Nat :=
  if code ≤ 7 then 18 else if code ≤ 10 then 19 else if code = 11 then 17 else if code = 12 then 16
  else if code = 13 then 15 else if code = 14 then 14 else if code = 15 then 13 else 12

/-- A fault (R448, R449): its IRQ_FAULT bit is set, and its error record is due on this tick. -/
def State.errRecord (s : State) (code action unit index : Nat) (d1 d2 : Word) : State :=
  let e : ErrRec := { code := code, action := action, unit := unit, index := index, d1 := d1, d2 := d2 }
  { s with irq := { s.irq with due := s.irq.due ++ [e] } }.setBit Reg.irqFault (faultBit code) true

/-- The MEM code of a memory (R457). -/
def memCode : MemKind → Nat
  | .programTable => 0
  | .dataSram => 1
  | .packetBuffer => 2
  | .clientTable => 3
  | .harpMemory => 4
  | .tdcTable => 5
  | .registerFile => 6
  | .stringState => 7
  | .pickQueue => 8
  | .laneState => 9

/-- The UNIT of a memory's record (R456; DEDUCED, notes/assumptions/34.md). -/
def memUnit : MemKind → Nat
  | .programTable => 1
  | .dataSram => 1
  | .packetBuffer => 1
  | .clientTable => 0
  | .harpMemory => 8
  | .tdcTable => 10
  | .registerFile => 2
  | .stringState => 2
  | .pickQueue => 4
  | .laneState => 9

/-- An ECC_HW record (R454, R457): hardware met a damaged word or byte at an address of a unit's memory. -/
def State.eccHw (s : State) (k : MemKind) (unit a : Nat) : State :=
  s.errRecord 17 1 (memUnit k) unit (BitVec.ofNat 20 (memCode k * 65536 + a / 2 ^ 20)) (BitVec.ofNat 20 a)

/-- An error record (R456): written if the ring has room, else counted as lost. -/
def State.writeErr (s : State) (e : ErrRec) : State :=
  let wr := s.rFld Reg.irqErrWr 0 16
  let rd := s.rFld Reg.irqErrRd 0 16
  if (wr + 65536 - rd) % 65536 < 32 then
    let a := 0x1800 + 64 * (wr % 32)
    let wr1 := (wr + 1) % 65536
    let w4 := e.code * 16384 + e.action * 4096 + e.unit * 256 + e.index % 256
    let w5 := (if s.irq.lost = 0 then 0 else 524288) + wr1
    let body := s.nut.toNat + w4 * 2 ^ 80 + w5 * 2 ^ 100 + e.d1.toNat * 2 ^ 120 + e.d2.toNat * 2 ^ 140 +
      s.regN (Reg.tag (tagOfUnit e.unit e.index)) 4 * 2 ^ 160 + s.regN (Reg.tag 0) 4 * 2 ^ 240
    let t := ((s.setRegN a 16 body).setFld Reg.irqErrWr 0 16 wr1)
    { t with irq := { t.irq with lost := 0 } }
  else
    let t := (s.addSat Reg.irqErrLost 1).setBit Reg.irqFault 11 true
    { t with irq := { t.irq with lost := t.irq.lost + 1 } }

/-- A record comes before another of its tick: by code, then by unit index (R449). -/
def ErrRec.before (a b : ErrRec) : Bool := a.code < b.code || (a.code == b.code && a.index < b.index)

/-- A record put in its place among those of its tick, behind those it does not come before. -/
def errInsert (e : ErrRec) : List ErrRec → List ErrRec
  | [] => [e]
  | x :: l => if e.before x then e :: x :: l else x :: errInsert e l

/-- This tick's records in the order they are written (R449). -/
def State.errOrder (s : State) : List ErrRec := s.irq.due.foldl (fun l e => errInsert e l) []

/-- The records of the tick that ends are written (R449, R456). -/
def State.flushErrs (s : State) : State :=
  let t := s.errOrder.foldl State.writeErr s
  { t with irq := { t.irq with due := [] } }

/-! ### Contexts, courses and ports -/

/-- Context x (R305). -/
def State.ctx (s : State) (x : CtxId) : Ctx := s.ctxs.get x
/-- A context replaced. -/
def State.setCtx (s : State) (x : CtxId) (c : Ctx) : State := { s with ctxs := vset s.ctxs x c }
/-- A context changed. -/
def State.onCtx (s : State) (x : CtxId) (f : Ctx → Ctx) : State := s.setCtx x (f (s.ctx x))
/-- Course c beside its registers. -/
def State.course (s : State) (c : CourseId) : Course := s.courses.get c
/-- A course changed. -/
def State.onCourse (s : State) (c : CourseId) (f : Course → Course) : State :=
  { s with courses := vset s.courses c (f (s.course c)) }
/-- Port p beside its registers. -/
def State.port (s : State) (p : PortId) : PortSt := s.ports.get p
/-- A port changed. -/
def State.onPort (s : State) (p : PortId) (f : PortSt → PortSt) : State :=
  { s with ports := vset s.ports p (f (s.port p)) }

/-- Register i of a context, modulo 64. -/
def Ctx.r (c : Ctx) (i : Nat) : Word := c.g.get (Fin.ofNat 64 i)
/-- Consecutive registers written from register i on. -/
def Ctx.wr (c : Ctx) (i : Nat) : List Word → Ctx
  | [] => c
  | w :: ws => Ctx.wr { c with g := vset c.g (Fin.ofNat 64 i) w } (i + 1) ws
/-- The words of k consecutive registers. -/
def Ctx.rd (c : Ctx) (i k : Nat) : List Word := (List.range k).map fun j => c.r (i + j)
/-- A chord of k registers as a number (R311). -/
def Ctx.chord (c : Ctx) (i k : Nat) : Nat := ofWords (c.rd i k)

/-- The string of a context (R305). -/
def strOf (x : CtxId) : StrId := ⟨x.val / 8, by omega⟩
/-- The course of a context (R305). -/
def courseOf (x : CtxId) : CourseId := ⟨x.val / 32, by omega⟩
/-- The course of a string. -/
def strCourse (st : StrId) : CourseId := ⟨st.val / 4, by omega⟩
/-- The contexts of a string. -/
def strCtxs (st : StrId) : List CtxId := (List.finRange 128).filter fun (x : CtxId) => x.val / 8 == st.val
/-- The contexts of a course. -/
def courseCtxs (c : CourseId) : List CtxId := (List.finRange 128).filter fun (x : CtxId) => x.val / 32 == c.val
/-- The strings of a course. -/
def courseStrs (c : CourseId) : List StrId := (List.finRange 16).filter fun (st : StrId) => st.val / 4 == c.val
/-- The home course of a port: its port group's (R19). -/
def homeOf (p : PortId) : CourseId := ⟨p.val / 6, by omega⟩

/-! ### Host access -/

/-- The addresses whose state a warm reset resets or loads, which the host does not reach during it (R474). -/
def warmShut (a : Nat) : Bool :=
  (0x40000 ≤ a && a < 0x80000) ||
  (0x80000 ≤ a && a < 0x180000 && !(0x114000 ≤ a && a < 0x114200) &&
    !(0x4000 ≤ (a - 0x80000) % 0x40000 && (a - 0x80000) % 0x40000 < 0x6000))

/-- The host domain serves accesses: the device is out of cold reset, PD11 is on, PERST_N is high, and the PCIe island has its clock
(R468, R470, R473, R478). -/
def State.hostUp (s : State) : Bool :=
  s.power.phase == Phase.up && s.powered 11 && !s.power.perstLow && !(s.power.xing.get 49).lost

/-- The addresses that a host write reaches during a cold boot (R490). -/
def bootOpen (a : Nat) : Bool :=
  (0x20 ≤ a && a ≤ 0x28) || (0x1000 ≤ a && a < 0x2000) || a == Reg.cfgCause || a == Reg.cfgCauseMask

/-- A cold boot runs: CFG_STAT.BUSY outside a warm reset (R490). -/
def State.coldBooting (s : State) : Bool := s.rBit Reg.cfgStat 19 && !s.rBit Reg.pwrStat 18

/-- DEV_MAP.ALT lets a host access reach the address: the first 4 KiB of C2's block are reached while it is 1 (R509). -/
def State.mapOpen (s : State) (a : Nat) : Bool := !(0x100000 ≤ a && a < 0x101000) || s.rBit Reg.devMap 19

/-- Where a BAR0 address leads (R509): the tag areas while DEV_MAP.ALT is 0. -/
def State.hostAddr (s : State) (a : Nat) : Nat := if s.mapOpen a then a else a + 0x1000000

/-- A host write to BAR0 takes effect: the host is up, DEV_MAP leads to the register (R509), no cold boot shuts the address
(R490), and no warm reset does (R474). -/
def State.hostOpen (s : State) (a : Nat) : Bool :=
  s.hostUp && s.mapOpen a && (!s.coldBooting || bootOpen a) && !(s.rBit Reg.pwrStat 18 && warmShut a)

/-- A host write: its effect `f` where it reaches its register; a write during a cold boot is counted in CFG_HOSTDROP
and sets CFG_CAUSE.HOSTDROP (R490); any other that does not reach it changes nothing. -/
def State.hostWrite (s : State) (a : Nat) (f : State → State) : State :=
  if s.hostOpen a then f s
  else if s.hostUp && s.coldBooting then (s.addSat Reg.cfgHostdrop 1).orReg Reg.cfgCause 0x08000
  else s

/-- A host read has its side effect: the host is up and no warm reset shuts the address (R474, R505). -/
def State.hostReads (s : State) (a : Nat) : Bool :=
  s.hostUp && s.mapOpen a && !(s.rBit Reg.pwrStat 18 && warmShut a)

/-- The words of a multi-word value put into a shadow at `a` (R506). -/
def shadowPut (r : Sparse Word) (a : Nat) : List Word → Sparse Word
  | [] => r
  | w :: ws => shadowPut (Sparse.write (fun _ => some 0) r a w) (a + 4) ws

/-- The value that a write of the highest word `v` of the register at `a` commits: the lower words of its write shadow with
`v` (R506). -/
def State.commitValue (s : State) (a : Nat) : Nat → Word → Nat
  | 0, _ => 0
  | 1, v => v.toNat
  | k + 2, v => ((Sparse.find s.wrShadow a).getD 0).toNat + 2 ^ 20 * s.commitValue (a + 4) (k + 1) v

/-- The write shadow after a commit equals the committed value (R506). -/
def State.shadowCommit (s : State) (a k v : Nat) : State := { s with wrShadow := shadowPut s.wrShadow a (toWords k v) }

/-- Every word of a multi-word value latched into the read shadow of the register at `a` (R506). -/
def State.latch (s : State) (a k v : Nat) : State :=
  { s with rdShadow := shadowPut s.rdShadow a (toWords k v) }

end Sys2Proof.Machine
end

