-- ==== Sys2Proof/Machine/PanelOps.lean ====
section
/-! DEFINITION. The panel's event queue and bindings (R527 to R531) and the level of an LED (R530). -/

namespace Sys2Proof.Machine

/-- Event codes (R527). -/
abbrev Ev.keyDown (k : Nat) : Nat := k
abbrev Ev.keyLong (k : Nat) : Nat := 0x08 + k
abbrev Ev.keyUp (k : Nat) : Nat := 0x10 + k
abbrev Ev.touchOn (p : Nat) : Nat := 0x18 + p
abbrev Ev.touchOff (p : Nat) : Nat := 0x1C + p
abbrev Ev.ant (st : Nat) : Nat := 0x20 + st
abbrev Ev.modIn (p : Nat) : Nat := 0x40 + p
abbrev Ev.modOut (p : Nat) : Nat := 0x60 + p
abbrev Ev.pickLos (p : Nat) : Nat := 0x80 + p
abbrev Ev.pickLosEnd (p : Nat) : Nat := 0x88 + p
abbrev Ev.finLos (u : Nat) : Nat := 0x90 + u
abbrev Ev.finLosEnd (u : Nat) : Nat := 0x94 + u

/-- Whether a binding entry matches a code (R531, R533). -/
def bindMatches (b : Word) (code : Nat) : Bool :=
  let sh := if fld b 17 2 = 1 then 3 else if fld b 17 2 = 2 then 5 else 0
  bitOf b 19 && fld b 8 8 >>> sh == code >>> sh

/-- The MODE of an LED written; the reserved modes are ignored and set CFG_ERR (R530). -/
def State.setLedMode (s : State) (l m : Nat) : State :=
  if 5 ≤ m then s.orReg Reg.pnlCause 0x10000 else s.setFld (Reg.pnlLed l) 17 3 m

/-- The first valid binding that matches a code writes its MODE into its LED (R531). -/
def State.applyBinding (s : State) (code : Nat) : State :=
  match (List.range 32).find? fun i => bindMatches (s.reg (Reg.pnlBind i)) code with
  | some i => s.setLedMode (s.rFld (Reg.pnlBind i) 4 4) (s.rFld (Reg.pnlBind i) 0 3)
  | none => s

/-- A panel event on this tick (R528): queued, or discarded and counted when the queue is full; then the bindings. -/
def State.panelEvent (s : State) (code : Nat) : State :=
  if s.rBit Reg.pnlCtrl 19 then
    let s1 :=
      if s.panel.queue.length < 32 then
        let w4 := 524288 + (if s.panel.ovf then 262144 else 0) + code
        let e := BitVec.ofNat 100 (s.nut.toNat + w4 * 2 ^ 80)
        ({ s with panel := { s.panel with queue := s.panel.queue ++ [e], ovf := false } }).orReg Reg.pnlCause 0x80000
      else
        ({ s with panel := { s.panel with ovf := true } }.addSat Reg.pnlEvtLost 1).orReg Reg.pnlCause 0x40000
    s1.applyBinding code
  else s

/-- Events of one tick, in ascending code order (R528). -/
def State.panelEvents (s : State) (codes : List Nat) : State := codes.foldl (fun u c => u.panelEvent c) s

/-- Whether an LED's MODE lights it now (R530). -/
def State.ledOn (s : State) (l : Fin 12) : Bool :=
  let w := s.reg (Reg.pnlLed l)
  let n := s.nut.toNat
  match fld w 17 3 with
  | 1 => true
  | 2 => decide (n % 65536000000000 < 32768000000000)
  | 3 => decide (n % 16384000000000 < 8192000000000)
  | 4 =>
    match (s.edges.get (Fin.ofNat 8 (fld w 8 3))).lead with
    | some t => decide ((s.nut - t).toNat < (msNut 100).toNat)
    | none => false
  | _ => false

/-- The level of an LED ball: active for the first DUTY × 64 ticks of each 16,384-tick period while lit (R530). -/
def State.ledPin (s : State) (l : Fin 12) : Bool :=
  let w := s.reg (Reg.pnlLed l)
  let lit := s.ledOn l && decide (s.nut.toNat / 163840 % 16384 < fld w 0 8 * 64)
  lit == bitOf w 16

end Sys2Proof.Machine
end

