-- ==== Sys2Proof/Machine/TdcOps.lean ====
section
/-! DEFINITION. TDC lines: bin tables (R66, R74, R77, R82), line stamps and their flags (R66 to R68), dead time (R72),
table checks (R73) and the swap of tables (R74 to R76). -/

namespace Sys2Proof.Machine

/-- NUT_TDC_LS bits (R83). -/
abbrev LS.valid : Nat := 19
abbrev LS.act : Nat := 18
abbrev LS.ready : Nat := 17
abbrev LS.stale : Nat := 16
abbrev LS.drift : Nat := 15
abbrev LS.calFail : Nat := 14
abbrev LS.degraded : Nat := 13

/-- The hits of code c. -/
def hitsOf (h : Sparse Nat) (c : Nat) : Nat := (Sparse.find h c).getD 0

/-- A histogram with one more hit in code c. -/
def addHit (h : Sparse Nat) (c : Nat) : Sparse Nat := Sparse.insert h c (hitsOf h c + 1)

/-- below(c): the hits of the codes under c. -/
def hitsBelow (h : Sparse Nat) (c : Nat) : Nat := (h.filter fun e => e.1 < c).foldl (fun n e => n + e.2) 0

/-- Entry c of a bin table: BEYOND, MISS and FINE (R66, R68, R74, R82). -/
def BinTable.entry (b : BinTable) (c : Nat) : Bool × Bool × Nat :=
  match b.body with
  | .blank => (false, false, 0)
  | .linear sp =>
    if sp ≤ c then (true, false, 163839) else (false, false, (roundHaz ((2 * c + 1 : Nat) * 81920) sp).toNat)
  | .hist h =>
    if b.span ≤ c then (true, false, 163839)
    else (false, hitsOf h c == 0, (roundHaz ((2 * hitsBelow h c + hitsOf h c : Nat) * 163840) 2097152).toNat)

/-- The word of a bin table at a byte offset of its window (R82). -/
def BinTable.wordAt (b : BinTable) (l : LineId) (o : Nat) : Word :=
  if o < 0x600 then
    let (by', mi, f) := b.entry (o / 4)
    BitVec.ofNat 20 (by'.toNat * 2 ^ 19 + mi.toNat * 2 ^ 18 + f)
  else if o = 0x600 then BitVec.ofNat 20 b.gen.toNat
  else if o = 0x604 then BitVec.ofNat 20 b.span
  else if o = 0x608 then b.qual
  else if o = 0x60C then BitVec.ofNat 20 b.maxbin
  else if o = 0x610 then b.temp
  else if o = 0x614 then BitVec.ofInt 20 (Config.ins0 l)
  else if o = 0x618 then BitVec.ofInt 20 (Config.insTc l) &&& 0xFFF
  else if o = 0x61C then BitVec.ofInt 20 b.ins
  else if o < 0x630 then BitVec.ofNat 20 (b.swap.toNat >>> (20 * ((o - 0x620) / 4)))
  else 0

/-- The active table of a line. -/
def State.active (s : State) (l : LineId) : BinTable :=
  if s.rBit (Reg.nutTdcLs l) LS.act then (s.lines.get l).t1 else (s.lines.get l).t0

/-- The shadow table of a line. -/
def State.shadow (s : State) (l : LineId) : BinTable :=
  if s.rBit (Reg.nutTdcLs l) LS.act then (s.lines.get l).t0 else (s.lines.get l).t1

/-- A line with another shadow table. -/
def State.setShadow (s : State) (l : LineId) (b : BinTable) : State :=
  let x := s.lines.get l
  let y := if s.rBit (Reg.nutTdcLs l) LS.act then { x with t0 := b } else { x with t1 := b }
  { s with lines := vset s.lines l y }

/-- A tick lies before the last swap of a line's tables (R75). -/
def State.beforeSwap (s : State) (l : LineId) (nc : Nut) : Bool := !reached nc (s.active l).swap

/-- The table that converts a capture of tick `nc` (R75): for a tick before the last swap the outgoing one. -/
def State.tableAt (s : State) (l : LineId) (nc : Nut) : BinTable :=
  if s.beforeSwap l nc then (s.lines.get l).out else s.active l

/-- The line stamp of a code captured on tick `nc` (R66, R75). -/
def State.lineStamp (s : State) (l : LineId) (c : Code) (nc : Nut) : Nut :=
  let b := s.tableAt l nc
  nc - BitVec.ofNat 80 (b.entry c.val).2.2 - BitVec.ofInt 80 b.ins

/-- The word address of entry `c` of table `k` within the memory of its line (R82, R457). -/
def tdcAddr (k : Bool) (c : Nat) : Nat := k.toNat * 512 + c

/-- The number of the table that converts a capture of tick `nc`: ACT, or the outgoing table's. -/
def State.tableNo (s : State) (l : LineId) (nc : Nut) : Bool := s.rBit (Reg.nutTdcLs l) LS.act != s.beforeSwap l nc

/-- The entry of a line's table that code `c` of tick `nc` reads is damaged (R454). -/
def State.tdcBad (s : State) (l : LineId) (c : Nat) (nc : Nut) : Bool :=
  s.bad.contains (MemKind.tdcTable, l.val, tdcAddr (s.tableNo l nc) c)

/-- A new shadow table of a line: every word of it is written, so that none is damaged (R454). -/
def State.newShadow (s : State) (l : LineId) (b : BinTable) : State :=
  let k := !s.rBit (Reg.nutTdcLs l) LS.act
  let t := s.setShadow l b
  { t with bad := t.bad.filter fun e => !(e.1 == MemKind.tdcTable && e.2.1 == l.val && e.2.2 / 512 == k.toNat) }

/-- TG of a stamp captured on tick `nc`: bit 0 of the generation of the table that converts it (R67). -/
def State.lineTg (s : State) (l : LineId) (nc : Nut) : Bool := (s.tableAt l nc).gen.getLsbD 0

/-- A line gives its stamps of tick `nc` CAL_WARN whatever their code (R67, R479 for TDC_OK, R453 for NUT_MASTER); for a tick before
the last swap its status word of that time counts (DEDUCED, notes/assumptions/165.md). -/
def State.lineSuspect (s : State) (l : LineId) (nc : Nut) : Bool :=
  let w := if s.beforeSwap l nc then (s.lines.get l).was else s.reg (Reg.nutTdcLs l)
  !bitOf w LS.valid || bitOf w LS.stale || bitOf w LS.drift || bitOf w LS.degraded ||
    !s.rBit Reg.pwrSupply 18 || s.rBit Reg.irqFault 15

/-- CAL_WARN of a stamp of a line (R67, R68 for code 383, R454 for a damaged entry). -/
def State.lineWarn (s : State) (l : LineId) (c : Code) (nc : Nut) : Bool :=
  s.lineSuspect l nc || c.val == 383 || s.tdcBad l c.val nc

/-- A stamp that the dead time discards (R72). -/
def deadTime (last : Option Nut) (t : Nut) : Bool :=
  match last with
  | some s1 => decide ((t - s1).toNat < 196608)
  | none => false

/-- A real event captured on a line: its tick is kept for R69, code 383 is counted (R68), and a damaged entry is recorded
(R454). -/
def State.capture (s : State) (l : LineId) (c : Code) (nc : Nut) : State :=
  let x := s.lines.get l
  let s1 := { s with lines := vset s.lines l { x with caps := (nc :: x.caps).take 8 } }
  let s2 := if c.val = 383 then s1.addSat (Reg.nutTdcOvr l) 1 else s1
  if s.tdcBad l c.val nc then s2.eccHw .tdcTable l.val (tdcAddr (s.tableNo l nc) c.val) else s2

/-- The table in progress of a line discarded (R77, R83), with the hits that wait for a verdict. -/
def Line.dropTable (x : Line) : Line := { x with hist := [], kept := 0, pend := [], hitAt := none }

/-- A tick lies on or within two ticks after a real event of a line (R70). -/
def Line.freshEvent (x : Line) (n : Nut) : Bool :=
  x.caps.any fun c => decide (0 ≤ (n - c).toInt) && decide ((n - c).toInt ≤ 327680)

/-- The power domain of a line: its port group's, else PD0 (R64, R77). -/
def lineDomain (l : LineId) : Nat := if l.val < 48 then 5 + l.val % 24 / 6 else 0

/-- The temperature sensor of a line. -/
def lineSensor (l : LineId) : Nat := if l.val < 48 then l.val % 24 / 6 else 0

/-- θ of a line's sensor, 1/128 °C (R79, R83). Before the sensor's first conversion it is the register's reset value 0, which no rule
gives a table built then (DESIGN CHOICE, notes/assumptions/166.md). -/
def State.lineTheta (s : State) (l : LineId) : Int := s.rSfld (Reg.pwrTemp (lineSensor l)) 0 16

/-- INS of a table built now (R79). -/
def State.insNow (s : State) (l : LineId) : Int :=
  Config.ins0 l + roundHaz (Config.insTc l * (s.lineTheta l - 3200)) 128

/-- The TEMP word of a table built now (R82). -/
def State.tempNow (s : State) (l : LineId) : Word :=
  BitVec.ofNat 20 (lineSensor l * 2 ^ 18 + (BitVec.ofInt 16 (s.lineTheta l)).toNat)

/-- The next generation of a line (R82). -/
def State.nextGen (s : State) (l : LineId) : BitVec 12 :=
  (if s.rBit (Reg.nutTdcLs l) LS.ready then (s.shadow l).gen else (s.active l).gen) + 1

/-- The span of a histogram: the highest code with a hit plus 1 (R73). -/
def histSpan (h : Sparse Nat) : Nat := (h.filter fun e => e.2 != 0).foldl (fun n e => max n (e.1 + 1)) 0

/-- MISS, WIDE, the widest bin's hits, and the hits of code 383 (R73). -/
def histMiss (h : Sparse Nat) : Nat := histSpan h - (h.filter fun e => e.2 != 0).length
/-- The bins wider than 1,311 units (R73). -/
def histWide (h : Sparse Nat) : Nat := (h.filter fun e => 1311 * 1048576 < e.2 * 163840).length
/-- The hits of the widest bin. -/
def histMax (h : Sparse Nat) : Nat := h.foldl (fun n e => max n e.2) 0

/-- The checks of a completed table (R73). -/
def histPasses (h : Sparse Nat) : Bool :=
  200 ≤ histSpan h && histSpan h ≤ 368 && histMiss h ≤ 4 && histMax h * 163840 ≤ 1966 * 1048576 &&
    histWide h ≤ 8 && hitsOf h 383 == 0

/-- The shadow table of a line made active on this tick (R75): the outgoing one becomes the shadow (R76). -/
def State.swapShadow (s : State) (l : LineId) (passing : Bool) : State :=
  let x := s.lines.get l
  let y := { s with lines := vset s.lines l { x with out := s.active l, was := s.reg (Reg.nutTdcLs l) } }
  let s0 := y.setShadow l { s.shadow l with swap := s.nut }
  let sp := (s0.shadow l).span
  let s1 := ((((s0.setBit (Reg.nutTdcLs l) LS.act (!s0.rBit (Reg.nutTdcLs l) LS.act)).setBit (Reg.nutTdcLs l) LS.ready
    false).setBit (Reg.nutTdcLs l) LS.stale false).setFld (Reg.nutTdcLs l) 0 9 sp)
  if passing then
    ((s1.setBit (Reg.nutTdcLs l) LS.valid true).setBit (Reg.nutTdcLs l) LS.degraded false).setFld (Reg.nutTdcLs l) 9 4 0
  else s1

/-- The linear table a DEGRADED line installs (R74): over the span of its last passing table, and over the start-up table's 294 where
it has had none (DESIGN CHOICE, notes/assumptions/168.md). -/
def State.linearTable (s : State) (l : LineId) : BinTable :=
  let sp := (s.lines.get l).passS
  { body := .linear sp, gen := s.nextGen l, span := sp, qual := 0, maxbin := (roundHaz 163840 sp).toNat,
    temp := s.tempNow l, ins := s.insNow l, swap := s.nut }

/-- A line addressed by SWAP_TDC (R74, R75): `ok` where its shadow table may become active. -/
def State.swapLine (s : State) (l : LineId) (ok : Bool) : State :=
  let w := s.reg (Reg.nutTdcLs l)
  if bitOf w LS.ready then (if ok then s.swapShadow l true else s)
  else if bitOf w LS.degraded then (s.newShadow l (s.linearTable l)).swapShadow l false
  else s

/-- Whether a line's shadow table may become active on a swap: a pick's two lines swap only together (R75). -/
def State.swapOk (s : State) (l : LineId) : Bool :=
  if 48 ≤ l.val ∧ l.val < 64 then
    s.rBit (Reg.nutTdcLs (48 + (l.val - 48) / 2 * 2)) LS.ready && s.rBit (Reg.nutTdcLs (49 + (l.val - 48) / 2 * 2)) LS.ready
  else true

/-- Whether a SWAP_TDC destination set addresses a line (R143). -/
def destHasLine (dest : Word) (l : LineId) : Bool :=
  if l.val < 48 then bitOf dest (8 + l.val % 24 / 6)
  else if l.val < 64 then bitOf dest ((l.val - 48) / 2)
  else bitOf dest 12

/-- The SWAP_TDC firings of one tick: each addressed line swaps once, and SWAPS counts the tick (R75, R83, R146). A line
whose domain is off ignores them (R145). -/
def State.swapTdc (s : State) (dest : Word) : State :=
  let ok := s.swapOk
  (foldFin 66 (fun l u =>
    if destHasLine dest l && s.powered (lineDomain l) then u.swapLine l (ok l) else u) s).incFld Reg.nutTdcStat 0 12

/-- The code at which a table first reaches half its hits (R80). A linear table has no hits: the model takes the middle of its span
(DESIGN CHOICE, notes/assumptions/167.md). -/
def BinTable.halfCode (b : BinTable) : Nat :=
  match b.body with
  | .blank => 0
  | .linear sp => (sp + 1) / 2
  | .hist h => ((List.range 385).find? fun c => 524288 ≤ hitsBelow h c).getD 384

/-- The median code of a batch of 65,536 hits (R80). -/
def batchMedian (h : Sparse Nat) : Nat := ((List.range 385).find? fun c => 32768 ≤ hitsBelow h (c + 1)).getD 384

/-! ### Hits (R69, R71) -/

/-- Whether a hit's window is one of the four ticks around a real event: it is withheld if the line stamps one from two
ticks before to one after it (R69). -/
def hitWithheld (caps : List Nut) (w : Nut) : Bool :=
  caps.any fun c => decide (-2 ≤ ((c - w).toInt / 163840)) && decide ((c - w).toInt / 163840 ≤ 1)

/-- The verdict on a hit (R69): it enters the histogram, and the batch of R80, unless it is withheld or the table is complete. -/
def Line.judge (x : Line) (h : Nut × Nat × Bool) : Line :=
  if h.2.2 || decide (1048576 ≤ x.kept) then x
  else
    let y := { x with hist := addHit x.hist h.2.1, kept := x.kept + 1 }
    if x.batchN < 65536 then { y with batch := addHit y.batch h.2.1, batchN := y.batchN + 1 } else y

/-- The verdict on the hits of a line whose window lies at least one tick back: an event of the tick after the window has come (R69). -/
def Line.settle (x : Line) (now : Nut) : Line :=
  let due := fun (h : Nut × Nat) => reached now (h.1 + tickUnits)
  ((x.pend.filter due).map fun h => (h.1, h.2, hitWithheld x.caps h.1)).foldl Line.judge
    { x with pend := x.pend.filter fun h => !due h }

end Sys2Proof.Machine
end

