-- ==== Sys2Proof/Machine/PickOps.lean ====
section
/-! DEFINITION. Picks and regression units: the prescaler, pick stamps (R67, R72), the queue (R112 to R114), gates and
regression sums (R121 to R124), intervals (R119, R120), and the house channels (R127, R128). -/

namespace Sys2Proof.Machine

/-- Line A of a pick (R64). -/
def lineA (p : PickId) : LineId := ⟨48 + 2 * p.val, by omega⟩
/-- Line B of a pick (R64). -/
def lineB (p : PickId) : LineId := ⟨49 + 2 * p.val, by omega⟩

/-- A pick replaced. -/
def State.setPick (s : State) (p : PickId) (x : Pick) : State := { s with picks := vset s.picks p x }
/-- An FMU replaced. -/
def State.setFmu (s : State) (u : FmuId) (x : Fmu) : State := { s with fmus := vset s.fmus u x }

/-- A stamp of a pick with its flags (R67). -/
structure Stamp where
  t      : Nut
  single : Bool
  calw   : Bool
  tg     : Bool
  deriving DecidableEq, Repr

/-- The capture tick of what a line shows (R66): this tick or the one before. -/
def State.captureTick (s : State) (m : Capture) : Nut := if m.early then s.nut - tickUnits else s.nut

/-- What a line of a pick sees of an edge: nothing while it carries a calibration hit (R70). -/
def State.lineSees (s : State) (l : LineId) (c : Option Capture) : Option Capture :=
  c.filter fun m => (s.lines.get l).hitAt != some (s.captureTick m)

/-- The line stamp of a capture (R66). -/
def State.captureStamp (s : State) (l : LineId) (m : Capture) : Nut := s.lineStamp l m.code (s.captureTick m)

/-- A line's part in the CAL_WARN of a pick stamp (R67). -/
def State.captureWarn (s : State) (l : LineId) (c : Option Capture) : Bool :=
  match c with
  | some m => s.lineWarn l m.code (s.captureTick m)
  | none => s.lineSuspect l s.nut

/-- The pick stamp of the captures of its two lines (R66, R67); none where neither saw the edge. -/
def State.pickStamp (s : State) (p : PickId) (a b : Option Capture) : Option Stamp :=
  let calw := s.captureWarn (lineA p) a || s.captureWarn (lineB p) b
  let tg := fun (l : LineId) (m : Capture) => s.lineTg l (s.captureTick m)
  match a, b with
  | some x, some y =>
    let sa := s.captureStamp (lineA p) x
    let sb := s.captureStamp (lineB p) y
    some { t := BitVec.ofNat 80 ((sa.toNat + sb.toNat + 1) / 2), single := false, calw := calw, tg := tg (lineA p) x }
  | some x, none => some { t := s.captureStamp (lineA p) x, single := true, calw := calw, tg := tg (lineA p) x }
  | none, some y => some { t := s.captureStamp (lineB p) y, single := true, calw := calw, tg := tg (lineB p) y }
  | none, none => none

/-- A capture noted on its line (R68, R69). -/
def State.noteCapture (s : State) (l : LineId) (c : Option Capture) : State :=
  match c with
  | some m => s.capture l m.code (s.captureTick m)
  | none => s

/-- The captures of an edge noted on the pick's lines (R68, R69). -/
def State.pickCaptures (s : State) (p : PickId) (a b : Option Capture) : State :=
  (s.noteCapture (lineA p) a).noteCapture (lineB p) b

/-- An edge that only one line of a pick shows within two ticks after a real event of the pick (R70, R72): both lines stamp an edge there,
so that one the other line does not show came within its blind 2.7 ns (DEDUCED, notes/assumptions/169.md). -/
def State.pickBlind (s : State) (p : PickId) (a b : Option Capture) : Bool :=
  (a.isNone || b.isNone) && (a <|> b).any fun m =>
    (s.lines.get (lineA p)).freshEvent (s.captureTick m) || (s.lines.get (lineB p)).freshEvent (s.captureTick m)

/-- Word 4 of a stamp entry, OVF aside (R112). -/
def stampWord (st : Stamp) (seq : BitVec 12) : Word :=
  BitVec.ofNat 20 (st.single.toNat * 2 ^ 18 + st.calw.toNat * 2 ^ 17 + st.tg.toNat * 2 ^ 16 + 2 ^ 14 + seq.toNat)

/-- A five-word queue entry of an 80-bit value and a word 4 (R112). -/
def queueEntry (v : Nut) (w4 : Word) : BitVec 100 := BitVec.ofNat 100 (v.toNat + w4.toNat * 2 ^ 80)

/-- An entry enters the pick's queue, with OVF where a loss waits to be shown; a full queue discards it (R114). -/
def State.enqueue (s : State) (p : PickId) (v : Nut) (w4 : Word) : State :=
  let x := s.picks.get p
  if x.queue.length < 2048 then
    let e := queueEntry v (if x.ovf then w4 ||| 0x8000 else w4)
    s.setPick p { x with queue := x.queue ++ [e], ovf := false }
  else ((s.setPick p { x with ovf := true }).addSat (Reg.pickQdrop p) 1).setBit (Reg.pickStat p) 18 true

/-! ### Gates (R121 to R124) -/

/-- The registers of a regression unit: its control register, its GATE register's block, and its GATE_DONE bit. -/
def unitBase : GateUnit → Nat
  | .pick p => Reg.pickBase p
  | .fmu u => Reg.fmuBase u

/-- The gate of a unit. -/
def State.gateOf (s : State) : GateUnit → Option Gate
  | .pick p => (s.picks.get p).gate
  | .fmu u => (s.fmus.get u).gate

/-- The closed gates of a unit whose results are due, oldest first. -/
def State.closedOf (s : State) : GateUnit → List ClosedGate
  | .pick p => (s.picks.get p).closed
  | .fmu u => (s.fmus.get u).closed

/-- A unit's gate and closed gates replaced. -/
def State.setGates (s : State) (u : GateUnit) (g : Option Gate) (cs : List ClosedGate) : State :=
  match u with
  | .pick p => s.setPick p { s.picks.get p with gate := g, closed := cs }
  | .fmu f => s.setFmu f { s.fmus.get f with gate := g, closed := cs }

/-- LOS of a unit's input (R111, R168). -/
def State.unitLos (s : State) : GateUnit → Bool
  | .pick p => s.rBit (Reg.pickStat p) 19
  | .fmu u => s.rBit (Reg.brgFmuStat u) 19

/-- PICK_CTRL as the pick obeys it on this tick: EDGE and PRESC of a write made while EN is 1 count from the next tick (R110). -/
def State.pickCtrlNow (s : State) (p : PickId) : Word := (s.picks.get p).old.getD (s.reg (Reg.pickCtrl p))

/-- PRESC of a unit: both control registers hold it in bits [17:14] (R110, R129, R184). -/
def State.unitPresc (s : State) : GateUnit → Nat
  | .pick p => fld (s.pickCtrlNow p) 14 4
  | .fmu u => s.rFld (Reg.brgFmuCtrl u) 14 4

/-- EN of a unit. -/
def State.unitOn (s : State) (u : GateUnit) : Bool := s.rBit (unitBase u) 19

/-- A gate opened on this tick: AUTO and GATE_LEN are taken (R122), and with them k, whose moment R123 does not give (DESIGN CHOICE,
notes/assumptions/170.md). -/
def State.newGate (s : State) (u : GateUnit) : Gate :=
  { opn := s.nut, auto := s.rBit (unitBase u + 0x10) 19, len := (s.reg (unitBase u + 0x14)).toNat, presc := s.unitPresc u,
    first := none, slot := none, edges := 0, n := 0, sm := 0, smm := 0, sx := 0, smx := 0, slip := false,
    los := s.unitLos u, calw := false }

/-- The open gate of a unit closed on this tick (R122). -/
def State.closeGate (s : State) (u : GateUnit) (long : Bool) : State :=
  match s.gateOf u with
  | some g => s.setGates u none (s.closedOf u ++ [{ gate := g, cls := s.nut, long := long }])
  | none => s

/-- A GATE_OPEN: an open gate closes and a new one opens on the same tick (R122). A disabled unit ignores it (R145). -/
def State.openGate (s : State) (u : GateUnit) : State :=
  if s.unitOn u then
    let s1 := s.closeGate u false
    s1.setGates u (some (s1.newGate u)) (s1.closedOf u)
  else s

/-- A GATE_CLOSE (R122). A disabled unit ignores it (R145). -/
def State.pluckCloseGate (s : State) (u : GateUnit) : State := if s.unitOn u then s.closeGate u false else s

/-- The units a GATE destination set addresses (R143): picks, FINs, and the SyncE-recovery units. -/
def destUnits (dest : Word) : List GateUnit :=
  ((List.finRange 8).filter fun (p : PickId) => bitOf dest p.val).map GateUnit.pick ++
  ((List.finRange 8).filter fun (u : FmuId) => decide (u.val < 4) && bitOf dest (8 + u.val)).map GateUnit.fmu ++
  (if bitOf dest 12 then [.fmu 4, .fmu 5, .fmu 6, .fmu 7] else [])

/-- A passed edge counted by a gate that has its first sample (R123). -/
def Gate.passed (g : Gate) : Gate := if g.first.isSome then { g with edges := g.edges + 1 } else g

/-- A stamp offered to a gate: the first in its slot becomes a sample (R121, R123). -/
def Gate.sample (g : Gate) (t : Nut) (calw : Bool) : Gate :=
  let sl := t.toNat / 671088640
  if g.slot = some sl then g
  else
    match g.first with
    | none => { g with first := some t, slot := some sl, edges := 0, n := 1, calw := g.calw || calw }
    | some t0 =>
      let x := (t - t0).toNat
      let m := g.edges
      { g with slot := some sl, n := g.n + 1, sm := g.sm + m, smm := g.smm + m * m, sx := g.sx + x, smx := g.smx + m * x,
               calw := g.calw || calw }

/-- A stamp belongs to the gate that holds its value (R122). -/
def ClosedGate.offer (c : ClosedGate) (t : Nut) (calw : Bool) : ClosedGate :=
  if reached t c.gate.opn && !reached t c.cls then { c with gate := c.gate.sample t calw } else c

/-- A passed edge in a unit's gates: counted (R123). -/
def State.gatePass (s : State) (u : GateUnit) : State :=
  s.setGates u ((s.gateOf u).map Gate.passed) ((s.closedOf u).map fun c => { c with gate := c.gate.passed })

/-- A stamp in a unit's gates (R121, R122). -/
def State.gateStamp (s : State) (u : GateUnit) (t : Nut) (calw : Bool) : State :=
  s.setGates u ((s.gateOf u).map fun g => if reached t g.opn then g.sample t calw else g)
    ((s.closedOf u).map fun c => c.offer t calw)

/-- SLIP in a unit's open gate: a dead-time discard or a prescaler restart (R124). -/
def State.gateSlip (s : State) (u : GateUnit) : State :=
  s.setGates u ((s.gateOf u).map fun g => { g with slip := true }) (s.closedOf u)

/-- LOS in a unit's open gate (R124). -/
def State.gateLos (s : State) (u : GateUnit) : State :=
  s.setGates u ((s.gateOf u).map fun g => { g with los := true }) (s.closedOf u)

/-- The result of a gate: Y and its flags SLIP, LOS, FEW, SAT, SHORT, LONG, CAL_WARN (R122 to R124). -/
def ClosedGate.result (c : ClosedGate) (fnom : Nat) : BitVec 40 × Nat :=
  let g := c.gate
  let d : Int := (g.n : Int) * g.smm - (g.sm : Int) * g.sm
  let a : Int := (g.n : Int) * g.smx - (g.sm : Int) * g.sx
  let y := roundHaz (rateDen * ((2 : Int) ^ (g.presc + 24) * 1000000000 * d - a * fnom)) (a * fnom)
  let few := decide (g.n < 3)
  let sat := !few && (fnom == 0 || !fitsSigned 40 y)
  let yv : BitVec 40 := if few || fnom == 0 then 0 else satSigned 40 y
  let short := decide ((c.cls - g.opn).toNat < (msNut 1).toNat)
  let sat' := sat || fnom == 0
  (yv, g.slip.toNat * 2 ^ 19 + g.los.toNat * 2 ^ 18 + few.toNat * 2 ^ 17 + sat'.toNat * 2 ^ 16 + short.toNat * 2 ^ 15 +
    c.long.toNat * 2 ^ 14 + g.calw.toNat * 2 ^ 13)

/-- The result registers of a unit written together (R124); FIRST of a gate with no sample is 0, and FNOM is the word held then (DESIGN
CHOICE, notes/assumptions/170.md and 171.md). -/
def State.writeResult (s : State) (u : GateUnit) (c : ClosedGate) : State :=
  let b := unitBase u
  let (y, fl) := c.result (s.regN (b + 0x18) 2)
  let seq := (s.rFld (b + 0x50) 0 8 + 1) % 256
  let s1 := (s.setReg (b + 0x50) (BitVec.ofNat 20 (fl + seq))).setRegN (b + 0x54) 2 y.toNat
  let s2 := (s1.setRegN (b + 0x60) 4 (c.gate.first.getD 0).toNat).setRegN (b + 0x70) 2 c.gate.n
  let s3 := ((s2.setRegN (b + 0x78) 4 c.gate.sm).setRegN (b + 0x88) 5 c.gate.smm).setRegN (b + 0x9C) 5 c.gate.sx
  let s4 := s3.setRegN (b + 0xB0) 6 c.gate.smx
  match u with
  | .pick p => s4.setBit (Reg.pickStat p) 16 true
  | .fmu f => s4.setBit (Reg.brgFmuStat f) 17 true

/-! ### Intervals (R119, R120) -/

/-- WIN of a stop channel in nut units. -/
def State.ivlWin (s : State) (p : PickId) : Nut := nsNut (s.reg (Reg.pickIvlWin p)).toNat

/-- Pick p is a stop channel (R119). -/
def State.isStop (s : State) (p : PickId) : Bool := s.rFld (Reg.pickIvl p) 18 2 == 1

/-- The start stamp nearest a stop within WIN, the earlier at equal distance (R119). -/
def nearest (win : Nut) (t : Nut) : List IvlStamp → Option IvlStamp
  | [] => none
  | q :: qs =>
    let d := (t - q.t).toInt.natAbs
    let rest := nearest win t qs
    if win.toNat < d then rest
    else
      match rest with
      | none => some q
      | some r =>
        let e := (t - r.t).toInt.natAbs
        if d < e || (d == e && decide (0 ≤ (r.t - q.t).toInt)) then some q else some r

/-- The interval entry of a stop and its start (R112, R119, R120); the start SEQ of an entry with no start is 0 (DESIGN CHOICE,
notes/assumptions/172.md). -/
def ivlEntry (stop : IvlStamp) (start : Option IvlStamp) : Nut × Word :=
  match start with
  | none => (0, BitVec.ofNat 20 (2 ^ 19 + 2 ^ 16 + 2 ^ 14 + stop.calw.toNat * 2 ^ 13 + stop.seq.toNat))
  | some q =>
    let i := (stop.t - q.t).toInt
    let co := decide (i.natAbs < 655)
    let iv : BitVec 40 := if co then 0 else BitVec.ofInt 40 i
    let wo := !co && decide (i < 0)
    (BitVec.ofNat 80 (iv.toNat + q.seq.toNat * 2 ^ 40),
     BitVec.ofNat 20 (2 ^ 19 + co.toNat * 2 ^ 18 + wo.toNat * 2 ^ 17 + 2 ^ 14 + (stop.calw || q.calw).toNat * 2 ^ 13 +
       stop.seq.toNat))

/-- A stop paired: its stamp entry and its interval entry enter the stop channel's queue (R119). -/
def State.pairStop (s : State) (p : PickId) (stop : IvlStamp) : State :=
  let x := s.picks.get p
  let q := nearest (s.ivlWin p) stop.t x.starts
  let starts := match q with
    | some r => x.starts.filter fun z => z ≠ r
    | none => x.starts
  let s1 := s.setPick p { x with stops := x.stops.tail, starts := starts }
  let e := ivlEntry stop q
  (s1.enqueue p stop.t stop.word).enqueue p e.1 e.2

/-- A stamp handed to every interval unit that takes this pick as its start channel (R119). -/
def State.offerStart (s : State) (p : PickId) (x : IvlStamp) : State :=
  foldFin 8 (fun k u =>
    if u.isStop k && u.rFld (Reg.pickIvl k) 15 3 == p.val then
      u.setPick k { u.picks.get k with starts := (u.picks.get k).starts ++ [x] }
    else u) s

/-- An accepted stamp delivered: to the queue, or to the interval unit of a stop channel; to the interval units it
starts; to the gates (R112, R119, R121). -/
def State.deliver (s : State) (p : PickId) (st : Stamp) (seq : BitVec 12) : State :=
  let w := stampWord st seq
  let iv : IvlStamp := { t := st.t, seq := seq, word := w, calw := st.calw }
  let s1 :=
    if s.isStop p then s.setPick p { s.picks.get p with stops := (s.picks.get p).stops ++ [iv] }
    else if s.rBit (Reg.pickCtrl p) 13 then s.enqueue p st.t w
    else s
  (s1.offerStart p iv).gateStamp (.pick p) st.t st.calw

/-- LOS of a pick falls on a passed edge, a panel event (R111, R526). -/
def State.pickSeen (s : State) (p : PickId) : State :=
  let s1 := s.setPick p { s.picks.get p with seen := some s.nut }
  if s1.rBit (Reg.pickStat p) 19 then (s1.setBit (Reg.pickStat p) 19 false).panelEvent (Ev.pickLosEnd p) else s1

/-- An edge that passes the prescaler (R67, R68, R70, R72, R108, R111 to R113, R119, R121): the state and the accepted
stamp. An event with code 383 counts in NUT_TDC_OVR also where the dead time then discards it (DESIGN CHOICE,
notes/assumptions/173.md). -/
def State.pickPassed (s : State) (p : PickId) (ca cb : Option Capture) : State × Option Stamp :=
  let s1 := s.pickSeen p
  let seq := (s1.picks.get p).seq + 1
  let s2 := (s1.setPick p { s1.picks.get p with seq := seq }).gatePass (.pick p)
  let a := s2.lineSees (lineA p) ca
  let b := s2.lineSees (lineB p) cb
  let st := s2.pickStamp p a b
  let s3 := s2.pickCaptures p a b
  match st with
  | none => ((s3.addSat (Reg.nutTdcDead (lineA p)) 1).gateSlip (.pick p), none)
  | some x =>
    if deadTime (s3.picks.get p).last x.t || s2.pickBlind p a b then
      ((s3.addSat (Reg.nutTdcDead (lineA p)) 1).gateSlip (.pick p), none)
    else ((s3.setPick p { s3.picks.get p with last := some x.t }).deliver p x seq, some x)

/-- An edge at a pick's input (R108): the prescaler passes one active edge in 2^k. -/
def State.pickEdgeIn (s : State) (p : PickId) (rising : Bool) (a b : Option Capture) : State × Option Stamp :=
  if s.rBit (Reg.pickCtrl p) 19 && (rising != bitOf (s.pickCtrlNow p) 18) then
    let x := s.picks.get p
    if x.skip = 0 then
      (s.setPick p { x with skip := 2 ^ s.unitPresc (.pick p) - 1 }).pickPassed p a b
    else (s.setPick p { x with skip := x.skip - 1 }, none)
  else (s, none)

/-- The prescaler of a pick restarts: it passes the next active edge (R108), and the gate in progress is flagged SLIP (R110, R124). -/
def State.pickRestart (s : State) (p : PickId) : State :=
  (s.setPick p { s.picks.get p with skip := 0, old := none }).gateSlip (.pick p)

/-- A write of PICK_CTRL (R108, R110, R111): PRESC 13 to 15 refuse it; every other one writes EDGE and PRESC and so restarts the
prescaler, at the end of this tick where EN is 1 (DEDUCED, notes/assumptions/174.md). -/
def State.pickCtrlWrite (s : State) (p : PickId) (v : Word) : State :=
  if 13 ≤ fld v 14 4 then s.setBit (Reg.pickStat p) 15 true
  else
    let old := s.reg (Reg.pickCtrl p)
    let new := v &&& 0xFFF00
    let s1 := s.setReg (Reg.pickCtrl p) new
    let s2 := if bitOf v 19 then s1.setPick p { s1.picks.get p with enAt := s1.nut } else s1
    if bitOf old 19 then s2.setPick p { s2.picks.get p with old := some (s.pickCtrlNow p) } else s2.pickRestart p

/-- The end of a tick for the picks whose PICK_CTRL was written while EN was 1 (R110). -/
def State.pickRestarts (s : State) : State :=
  foldFin 8 (fun (p : PickId) u => if (u.picks.get p).old.isSome then u.pickRestart p else u) s

/-- The tick from which a LOS time runs: the later of the last passed edge and the enable (R111). -/
def losFrom (seen : Option Nut) (enAt : Nut) : Nut :=
  match seen with
  | some t => if reached t enAt then t else enAt
  | none => enAt

/-- The LOS time of a pick has passed (R111). -/
def State.pickSilent (s : State) (p : PickId) : Bool :=
  let x := s.picks.get p
  reached s.nut (losFrom x.seen x.enAt + usNut (2 ^ min 21 (s.rFld (Reg.pickCtrl p) 8 5)))

/-! ### House channels (R127, R128) -/

/-- HC0 watches an output (R127). -/
def State.hc0Watches (s : State) (o : OutId) : Bool :=
  s.rFld Reg.pickHc0Ctrl 0 3 == o.val && (s.rBit Reg.pickHc0Ctrl 19 || s.rBit Reg.pickHc0Ctrl 18)

/-- HC0 stamps a rising edge of the output it watches, on or after its capture tick (R72, R75, R127): its LAST registers, and the stamp
with its CAL_WARN. A code of 383 on an edge that the dead time discards is not counted (DESIGN CHOICE, notes/assumptions/173.md). -/
def State.hc0Stamp (s : State) (o : OutId) (nc : Nut) (c : Code) : State × Option (Nut × Bool) :=
  let t := s.lineStamp 64 c nc - BitVec.ofInt 80 (Config.hc0Delay o)
  if deadTime (s.lines.get 64).last t then (s.addSat (Reg.nutTdcDead 64) 1, none)
  else
    let s1 := s.capture 64 c nc
    let s2 := { s1 with lines := vset s1.lines 64 { s1.lines.get 64 with last := some t } }
    (s2.setRegN Reg.pickHc0Last 4 t.toNat, some (t, s.lineWarn 64 c nc))

end Sys2Proof.Machine
end

