-- ==== Sys2Proof/Machine/TunOps.lean ====
section
/-! DEFINITION. Operations of the tunings: the anchor in force (R45 to R48), a commit's effect and its checks (R51 to
R55), the marking of plucks (R148 to R150) and the squelch of an unsequenced commit (R201). -/

namespace Sys2Proof.Machine

/-- TUN_STATUS.PARENT: a child of T0; T0's own parent is the nut (R45). -/
def State.isChild (s : State) (t : TunId) : Bool := t != 0 && s.rBit (Reg.tunStatus t) 18

/-- Whether this tick's nut value is a multiple of `u` (R163, R185). -/
def State.onMultiple (s : State) (u : Nat) : Bool := s.nutRun && s.nut.toNat % u == 0

/-- TUN_CTRL.ENABLE (R56). -/
def State.tunOn (s : State) (t : TunId) : Bool := s.rBit (Reg.tunCtrl t) 19

/-- TUN_STATUS.UNSET as it reads: a child's is 1 while T0's is (R55). -/
def State.tunUnset (s : State) (t : TunId) : Bool :=
  s.rBit (Reg.tunStatus t) 19 || (s.isChild t && s.rBit (Reg.tunStatus 0) 19)

/-! ### The status ladder (R197, R198) -/

/-- The selection state of the bridge (R175, R182). -/
abbrev BS.freerun : Nat := 0
abbrev BS.tracking : Nat := 1
abbrev BS.holdoff : Nat := 2
abbrev BS.switching : Nat := 3
abbrev BS.holdover : Nat := 4

/-- BRG_SEL_STAT.STATE. -/
def State.selState (s : State) : Nat := s.rFld Reg.brgSelStat 17 3

/-- The denominator of E(h) (R197). -/
def teDen : Nat := 65536 * 100000 * 172800

/-- E(h) of R197 in ns, as a numerator over `teDen`. -/
def State.teNum (s : State) : Nat :=
  let h := s.regN Reg.brgHoElapsed 2
  s.bridge.hoE0 * 100000 * 172800 + s.regN Reg.brgOscUrate 2 * h * 65536 * 172800 +
    (s.reg Reg.brgOscUage).toNat * h * h * 65536

/-- The holdover rows of R198: HOLDOVER, SWITCHING from it, and the time after such a switch until the step commit or the
end of the slew. -/
def State.inHoldover (s : State) : Bool :=
  s.selState == BS.holdover || (s.selState == BS.switching && s.bridge.origin == BS.holdover) ||
    (s.bridge.hoKeep && s.selState != BS.freerun)

/-- CLK_STATUS and clockClass (R198), and STATUS_CHANGE where CLK_STATUS changes (R214). -/
def State.ladder (s : State) : State :=
  let free := s.tunUnset 0 || s.selState == BS.freerun ||
    (s.selState == BS.switching && s.bridge.origin == BS.freerun)
  let past := fun (ns : Nat) => decide (ns * teDen < s.teNum)
  let (c, cls) :=
    if free then (0, 248)
    else if s.inHoldover then
      (if past (s.reg Reg.brgHoSpec).toNat then (3, s.rFld Reg.brgHoClass 0 8) else (2, 7))
    else (1, 6)
  let unsync := free || (s.inHoldover && past ((s.reg Reg.brgHoNtp).toNat * 1000))
  let was := s.rFld Reg.brgHoStat 18 2
  let s1 := ((s.setFld Reg.brgHoStat 18 2 c).setBit Reg.brgHoStat 17 unsync).setFld Reg.brgHoStat 0 8 cls
  if c = was then s1 else s1.orReg Reg.brgLcause 0x10000

/-- The anchor a conversion of tuning t uses (R46, R47, R50). -/
def State.anchor (s : State) (t : TunId) : Anchor :=
  if s.isChild t then
    { nut := s.reg80 (Reg.tunAncNut 0), val := s.reg100 (Reg.tunAncVal 0), rate := s.reg40 (Reg.tunAncRate 0),
      off := s.reg100 (Reg.tunAncVal t), cnut := s.reg80 (Reg.tunAncNut t), crate := s.reg40 (Reg.tunAncRate t) }
  else
    { nut := s.reg80 (Reg.tunAncNut t), val := s.reg100 (Reg.tunAncVal t), rate := s.reg40 (Reg.tunAncRate t),
      off := 0, cnut := s.reg80 (Reg.tunAncNut t), crate := 0 }

/-- The reading of tuning t at a nut value (R46, R47). -/
def State.reading (s : State) (t : TunId) (n : Nut) : FullTime := readAnchor (s.anchor t) n

/-- A conversion of a nut value: 0 where the tuning is disabled (R56). -/
def State.nutToTun (s : State) (t : TunId) (n : Nut) : FullTime := if s.tunOn t then s.reading t n else 0

/-- A conversion to a nut value: 0 where the tuning is disabled (R48, R56). -/
def State.tunToNut (s : State) (t : TunId) (v : FullTime) : Nut :=
  if s.tunOn t then nutOfReading (s.anchor t) v else 0

/-- The rate a commit leaves the tuning with: FULL and RATE set it, STEP keeps it (R51). -/
def commitRate (s : State) (t : TunId) (c : Commit) : Rate :=
  if c.kind = 2 then s.reg40 (Reg.tunAncRate t) else c.rate

/-- Whether the tuning is a child of T0 after the commit (R51). -/
def commitParent (s : State) (t : TunId) (c : Commit) : Bool := if c.kind = 0 then c.parent else s.isChild t

/-- Whether the commit would leave a child of T0 whose r_T0 + r_c is outside the 40-bit signed range (R54). -/
def commitRange (s : State) (t : TunId) (c : Commit) : Bool :=
  let r := (commitRate s t c).toInt
  if t = 0 then
    (List.finRange 16).any fun k => s.isChild k && !fitsSigned 40 (r + (s.reg40 (Reg.tunAncRate k)).toInt)
  else commitParent s t c && !fitsSigned 40 ((s.reg40 (Reg.tunAncRate 0)).toInt + r)

/-- Whether a commit is discarded (R54). -/
def commitBad (s : State) (t : TunId) (c : Commit) : Bool :=
  c.kind = 3 || decide (ftNs c.val > 999999999) || (c.kind = 0 && c.parent && t = 0) || commitRange s t c

/-- The anchor of tuning t written. -/
def State.setAnchor (s : State) (t : TunId) (n : Nut) (v : FullTime) (r : Rate) : State :=
  ((s.setRegN (Reg.tunAncNut t) 4 n.toNat).setRegN (Reg.tunAncVal t) 5 v.toNat).setRegN (Reg.tunAncRate t) 2 r.toNat

/-- The value a RATE or STEP commit moves the anchor to on this tick: V(n_N), or V(n_N) − V_T0(n_N) for a child of T0
(R51). -/
def State.movedVal (s : State) (t : TunId) : FullTime :=
  if s.isChild t then ftOfUnits (ftUnits (s.reading t s.nut) - ftUnits (s.reading 0 s.nut)) else s.reading t s.nut

/-- The anchor a commit leaves: FULL takes it whole; RATE moves it to the commit tick with the reading unchanged; STEP
adds S to that (R51). -/
def State.anchorAfter (s : State) (t : TunId) (c : Commit) : State :=
  if c.kind = 0 then (s.setAnchor t c.nut c.val c.rate).setBit (Reg.tunStatus t) 18 c.parent
  else if c.kind = 1 then s.setAnchor t s.nut (s.movedVal t) c.rate
  else s.setAnchor t s.nut (ftAdd (s.movedVal t) c.val) (s.reg40 (Reg.tunAncRate t))

/-- The base, tuning and periodic fields of a general pluck's control word (R159). -/
def plkBaseTun (w : Word) : Bool × Nat := (bitOf w 15, fld w 11 4)
/-- The base and tuning of an edge pluck's control word (R160). -/
def edgeBaseTun (w : Word) : Bool × Nat := (bitOf w 16, fld w 12 4)

/-- A target in tuning k is moved by a commit to tuning t (R57). -/
def State.tunMoved (s : State) (t : TunId) (k : Nat) : Bool :=
  k == t.val || (t.val == 0 && s.isChild (Fin.ofNat 16 k))

/-- General pluck g marked by a commit, and held unless the commit is a RATE (R148, R150). -/
def State.markPluck (s : State) (g : PluckId) (held : Bool) : State :=
  let t := { s with plucks := vset s.plucks g { s.plucks.get g with mark := true } }
  if held then t.setBit (Reg.plkStat g) 16 true else t

/-- Edge pluck o marked by a commit, and held unless the commit is a RATE (R148, R150). -/
def State.markEdge (s : State) (o : OutId) (held : Bool) : State :=
  let e := s.edges.get o
  let t := { s with edges := vset s.edges o { e with pluck := { e.pluck with mark := true } } }
  if held then t.setBit (Reg.plkEdgeStat o) 17 true else t

/-- Whether a commit to tuning t marks general pluck g: armed, tuning base (R148). -/
def State.pluckMoved (s : State) (t : TunId) (g : PluckId) : Bool :=
  let (b, k) := plkBaseTun (s.plucks.get g).cfg.ctrl
  s.rBit (Reg.plkStat g) 19 && b && s.tunMoved t k

/-- Whether a commit to tuning t marks edge pluck o (R148). -/
def State.edgeMoved (s : State) (t : TunId) (o : OutId) : Bool :=
  let (b, k) := edgeBaseTun (s.edges.get o).pluck.cfg.ctrl
  s.rBit (Reg.plkEdgeStat o) 19 && b && s.tunMoved t k

/-- Every pluck a commit to tuning t marks, and the re-conversion pass it starts or joins (R148, R160). -/
def State.markPlucks (s : State) (t : TunId) (held : Bool) : State :=
  let gs := (List.finRange 256).filter (s.pluckMoved t)
  let os := (List.finRange 8).filter (s.edgeMoved t)
  let s1 := gs.foldl (fun u g => u.markPluck g held) s
  let s2 := os.foldl (fun u o => u.markEdge o held) s1
  if gs.isEmpty && os.isEmpty then s2
  else
    let s3 := if s2.rBit Reg.plkGstat 19 then s2
      else (s2.setBit Reg.plkGstat 19 true).incFld Reg.plkGstat 0 12
    { s3 with reconvAt := s3.nut }

/-- The base and tuning that govern an output: those in force while its pluck is armed, else those of its register. -/
def State.outBaseTun (s : State) (o : OutId) : Bool × Nat :=
  if s.rBit (Reg.plkEdgeStat o) 19 then edgeBaseTun (s.edges.get o).pluck.cfg.ctrl
  else edgeBaseTun (s.reg (Reg.plkEdgeCtrl o))

/-- 400,000,000 ticks in nut units: the squelch of R200 and R201. -/
def squelchSpan : Nut := 65536000000000

/-- The squelch of an unsequenced FULL or STEP commit (R201). -/
def State.unseqSquelch (s : State) (t : TunId) : State :=
  let s1 := foldFin 8 (fun o u =>
    let (b, k) := s.outBaseTun o
    if b && s.tunMoved t k then
      { u with edges := vset u.edges o { u.edges.get o with unseq := some (u.nut + squelchSpan) } }
    else u) s
  s1.orReg Reg.brgLcause 0x40000

/-- Where a commit comes from, as R53 and R201 divide them. -/
inductive CommitSrc where
  | leap | bridge | sequence | other
  deriving DecidableEq, Repr

/-- What a commit to T0 leaves beside the anchor: its rate from this tick on (R163), and the STEP flag of the time-of-day
records (R213). -/
def State.noteT0 (s : State) (t : TunId) (c : Commit) : State :=
  if t = 0 then
    let r := s.reg40 (Reg.tunAncRate 0)
    let s1 := { s with bridge := { s.bridge with rates := (s.nut, r) :: s.bridge.rates } }
    if c.kind = 2 then { s1 with tods := s1.tods.map fun u => { u with step := true } } else s1
  else s

/-- The step commit of a step sequence ends the frequency-only state and the status kept since holdover (R198, R200):
the phase left to remove is 0. -/
def State.seqStepped (s : State) : State :=
  (({ s with bridge := { s.bridge with hoKeep := false, fonly := false, phi := 0, p := 0, qc := 0 } }).setRegN Reg.brgPhi 3
    0).setBit Reg.brgLoopStat 19 false |>.ladder

/-- The bridge's RATE commit to T0 (R51, R185): the anchor moves to this tick with what its rounding to 2⁻²² ns leaves carried to the
next one, so that T0 keeps to the exact integral of its rate (R187; DEDUCED, notes/assumptions/159.md). -/
def State.steerAnchor (s : State) (r : Rate) : State :=
  let a := s.anchor 0
  let d := (s.nut - a.nut).toInt * 64 * (rateDen + a.rate.toInt) + s.bridge.ancRes
  let q := roundHaz d rateDen
  let t := s.setAnchor 0 s.nut (ftOfUnits (ftUnits a.val + q)) r
  { t with bridge := { t.bridge with ancRes := d - q * rateDen } }

/-- The anchor that a commit leaves, by its source: a commit to T0 that is not the bridge's carries nothing on. -/
def State.moveAnchor (s : State) (t : TunId) (c : Commit) (src : CommitSrc) : State :=
  if src = .bridge then s.steerAnchor c.rate
  else
    let u := s.anchorAfter t c
    if t = 0 then { u with bridge := { u.bridge with ancRes := 0 } } else u

/-- The tick is this tuning's (R53). -/
def State.takeTick (s : State) (t : TunId) : State :=
  { s with tunings := vset s.tunings t { s.tunings.get t with took := some s.nut } }

/-- A commit on its commit tick (R51, R53, R54, R55, R57, R201): discarded with ERR set, or the new anchor, GEN advanced,
UNSET cleared by FULL and STEP, plucks marked, outputs squelched. -/
def State.commit (s : State) (t : TunId) (c : Commit) (src : CommitSrc) : State :=
  if commitBad s t c then (s.takeTick t).setBit (Reg.tunStatus t) 15 true
  else
    let s1 := ((s.takeTick t).moveAnchor t c src).incFld (Reg.tunStatus t) 0 8
    let s2 := if c.kind = 1 then s1 else s1.setBit (Reg.tunStatus t) 19 false
    let s3 := (s2.markPlucks t (c.kind ≠ 1)).noteT0 t c
    if src = .sequence then s3.seqStepped
    else if c.kind ≠ 1 && src = .other then s3.unseqSquelch t
    else s3

/-- The commit the tuning's staging registers hold (R51). -/
def State.stagedCommit (s : State) (t : TunId) (kind : BitVec 2) (parent seq : Bool) : Commit :=
  { kind := kind, seq := seq, parent := parent, nut := s.reg80 (Reg.tunNewNut t), val := s.reg100 (Reg.tunNewVal t),
    rate := s.reg40 (Reg.tunNewRate t) }

/-- The crossing of a request in the host's place (R469): the host's, or the bridge arithmetic's for a step sequence. -/
def Commit.xing (c : Commit) : Fin 56 := if c.seq then 55 else 49

/-- The request that waits starts to cross: PENDING, where none crosses and its crossing is not void (R52, R462, R466). -/
def State.startCommit (s : State) (t : TunId) : State :=
  let u := s.tunings.get t
  match u.host, u.hostNext with
  | none, some c =>
    if s.isVoid c.xing then s
    else
      ((({ s with tunings := vset s.tunings t { u with host := some c, hostNext := none } }).setBit (Reg.tunStatus t) 17 true).setBit
        (Reg.tunStatus t) 16 false).depart c.xing (.commit t)
  | _, _ => s

/-- A request in the host's place: it crosses, or waits behind the one that crosses and for its crossing's handshake: BUSY (R52,
R466). -/
def State.offerCommit (s : State) (t : TunId) (c : Commit) : State :=
  (({ s with tunings := vset s.tunings t { s.tunings.get t with hostNext := some c } }).setBit (Reg.tunStatus t) 16 true).startCommit t

/-- The crossing of a course's programs (R469). -/
def crsXing (c : CourseId) : Fin 56 := ⟨51 + c.val, by omega⟩

/-- Host writes to T0's TUN_NEW_VAL and TUN_COMMIT are held: a step sequence runs, or writes that one held still wait for
the tick after its end (R200). -/
def State.holding (s : State) : Bool := s.rBit Reg.brgLoopStat 16 || !s.bridge.held.isEmpty

/-- A host write held until the tick after the step sequence (R200). -/
def State.holdWrite (s : State) (a : Nat) (v : Word) : State :=
  { s with bridge := { s.bridge with held := s.bridge.held ++ [(a, v)] } }

/-- A word written to TUN_COMMIT (R51, R52): KIND [19:18], PARENT [17]. -/
def State.tunCommitWrite (s : State) (t : TunId) (v : Word) : State :=
  s.offerCommit t (s.stagedCommit t (BitVec.ofNat 2 (fld v 18 2)) (bitOf v 17) false)

/-- A host write of TUN_COMMIT, held for T0 by a step sequence (R200). -/
def State.hostTunCommit (s : State) (t : TunId) (v : Word) : State :=
  if t = 0 && s.holding then s.holdWrite (Reg.tunCommit 0) v else s.tunCommitWrite t v

/-- The first program commit by course order of those whose crossing is not void, and the queue without it (R53, R466). -/
def firstProg (q : List ProgCommit) (void : CourseId → Bool) : Option (ProgCommit × List ProgCommit) :=
  let pick := fun (c : CourseId) => q.findIdx? fun e => e.course = c
  match ((List.finRange 4).filter fun c => !void c).findSome? pick with
  | some i =>
    match q[i]? with
    | some e => some (e, q.eraseIdx i)
    | none => none
  | none => none

/-- A TCMT completes (R354): G(DST) receives the status (0 DONE, 1 ERR, 2 HELD) and GEN after the tick, its other bits being
open, and with SF = 1 Z is 1 for DONE. The context's result then crosses back. -/
def State.progStatus (s : State) (t : TunId) (e : ProgCommit) (code : Nat) : State :=
  let (v, s2) := s.free 8
  let w : Word := BitVec.ofNat 20 (code * 65536 + v.toNat * 256 + s2.rFld (Reg.tunStatus t) 0 8)
  if (s2.ctx e.x).item = e.item then
    s2.onCtx e.x fun c =>
      let d := c.wr e.dst.toNat [w]
      { d with stall := .result, fl := if e.sf then { d.fl with z := code == 0 } else d.fl }
  else s2

/-- A program's commit on its commit tick (R53, R354). -/
def State.progDone (s : State) (t : TunId) (e : ProgCommit) : State :=
  (s.commit t e.c .other).progStatus t e (commitBad s t e.c).toNat

/-- During a step sequence the TCMTs that wait for T0 or a child of T0 complete HELD, and are not applied (R354). -/
def State.heldProgs (s : State) (t : TunId) : State :=
  if s.rBit Reg.brgLoopStat 16 && (t == 0 || s.isChild t) then
    let q := (s.tunings.get t).progs
    let go := fun (e : ProgCommit) => !s.isVoid (crsXing e.course)
    (q.filter go).foldl (fun u e => (u.progStatus t e 2).land (.prog t e.x))
      { s with tunings := vset s.tunings t { s.tunings.get t with progs := q.filter fun e => !go e } }
  else s

/-- The commit of tuning t that takes a tick: the host's, else the first program's (R53). The one behind the host's then
starts to cross (R52). A TCMT that a step sequence holds off takes none. -/
def State.commitTun (s0 : State) (t : TunId) : State :=
  let s := s0.heldProgs t
  let u := s.tunings.get t
  match u.host with
  | some c =>
    let s1 := s.commit t c (if c.seq then .sequence else .other)
    let s2 := { s1 with tunings := vset s1.tunings t { s1.tunings.get t with host := none } }
    ((s2.setBit (Reg.tunStatus t) 17 false).land (.commit t)).startCommit t
  | none =>
    match firstProg u.progs fun c => s.isVoid (crsXing c) with
    | some (e, q) =>
      (({ s with tunings := vset s.tunings t { s.tunings.get t with progs := q } }).land (.prog t e.x)).progDone t e
    | none => s

end Sys2Proof.Machine
end

