-- ==== Sys2Proof/Machine/PluckOps.lean ====
section
/-! DEFINITION. Plucks: what an arm takes (R134), when it is refused (R136, R138), firing ticks and lateness (R137 to
R141), the advance of a periodic pluck (R141, R142), edge codes (R154), re-conversion passes (R148, R160) and the
loopback calibration (R158). -/

namespace Sys2Proof.Machine

/-- A general pluck replaced. -/
def State.setPluck (s : State) (g : PluckId) (p : Pluck) : State := { s with plucks := vset s.plucks g p }
/-- An edge output replaced. -/
def State.setEdge (s : State) (o : OutId) (e : Edge) : State := { s with edges := vset s.edges o e }

/-- What an arm of general pluck g takes from its registers (R134). -/
def State.plkCfg (s : State) (g : PluckId) : PluckCfg :=
  { ctrl := s.reg (Reg.plkCtrl g), dest := s.reg (Reg.plkDest g), tgt := s.reg100 (Reg.plkTgt g), per := s.reg60 (Reg.plkPer g),
    arg0 := s.reg (Reg.plkArg g), arg1 := s.reg (Reg.plkArg g + 4), width := 0 }

/-- What an arm of edge pluck o takes from its registers (R134). -/
def State.edgeCfg (s : State) (o : OutId) : PluckCfg :=
  { ctrl := s.reg (Reg.plkEdgeCtrl o), dest := 0, tgt := s.reg100 (Reg.plkEdgeTgt o), per := s.reg60 (Reg.plkEdgePer o),
    arg0 := 0, arg1 := 0, width := s.reg40 (Reg.plkEdgeWidth o) }

/-- ACTION of a general pluck (R143). -/
def cfgAction (c : PluckCfg) : Nat := fld c.ctrl 16 4
/-- BASE, TUN of a general pluck. -/
def cfgBase (c : PluckCfg) : Bool := bitOf c.ctrl 15
def cfgTun (c : PluckCfg) : TunId := Fin.ofNat 16 (fld c.ctrl 11 4)
/-- CMP: short mode (R138). -/
def cfgShort (c : PluckCfg) : Bool := bitOf c.ctrl 10
/-- POLICY (R141). -/
def cfgPolicy (c : PluckCfg) : Nat := fld c.ctrl 8 2
/-- PERIODIC of a general pluck. -/
def cfgPeriodic (c : PluckCfg) : Bool := bitOf c.ctrl 7
/-- BASE, TUN and PERIODIC of an edge pluck (R160). -/
def ecfgBase (c : PluckCfg) : Bool := bitOf c.ctrl 16
def ecfgTun (c : PluckCfg) : TunId := Fin.ofNat 16 (fld c.ctrl 12 4)
def ecfgPeriodic (c : PluckCfg) : Bool := bitOf c.ctrl 11

/-- 400 ticks in nut units: the shortest period (R136). -/
def minPeriod : Nat := 65536000

/-- Whether an arm of a general pluck is refused with ERR (R136). -/
def State.armRefused (s : State) (r : PluckReq) : Bool :=
  let c := r.cfg
  decide (7 ≤ cfgAction c) || cfgPolicy c == 3 || (cfgBase c && !s.tunOn (cfgTun c)) ||
    (cfgPeriodic c && decide (c.per.toNat < minPeriod)) || (!cfgPeriodic c && cfgPolicy c == 2) ||
    ((cfgAction c == 2 || cfgAction c == 3 || cfgAction c == 5) && c.dest == 0) || r.disarm

/-- Whether an arm of an edge pluck is refused with ERR (R136). -/
def State.edgeRefused (s : State) (r : PluckReq) : Bool :=
  let c := r.cfg
  (ecfgBase c && !s.tunOn (ecfgTun c)) || (ecfgPeriodic c && decide (c.per.toNat < minPeriod)) || r.disarm ||
    c.width == 0 || (ecfgPeriodic c && decide (c.per.toNat ≤ c.width.toNat * 163840))

/-- The nut target of a target in its own base (R135). -/
def State.targetNut (s : State) (base : Bool) (t : TunId) (tgt : FullTime) : Nut :=
  if base then nutOfReading (s.anchor t) tgt else BitVec.ofNat 80 tgt.toNat

/-- The target k periods on, in its own base (R142). -/
def advanceTgt (base : Bool) (tgt : FullTime) (per : W60) (k : Nat) : FullTime :=
  if base then ftOfUnits (ftUnits tgt + (k * per.toNat * 64 : Nat))
  else BitVec.ofNat 100 ((tgt.toNat % 2 ^ 80 + k * per.toNat) % 2 ^ 80)

/-- The horizon of short mode: |D| < 2⁴⁷ units (R138). -/
def inHorizon (x now : Nut) : Bool := decide ((x - now).toInt.natAbs < 2 ^ 47)

/-- The firing tick of a general pluck's nut target less this tick, in nut units: long mode goes by unsigned values, short mode by their
difference and without the fraction below 1 ns (R137, R138). -/
def fireAhead (short : Bool) (x now : Nut) : Int :=
  if short then (BitVec.ofNat 80 (tickUp (x &&& ~~~(0xFFFF : Nut))) - now).toInt else (tickUp x : Int) - now.toNat

/-- A target is due: long mode compares as 80-bit unsigned values, short mode by d ≤ 0 (R137, R138). -/
def targetDue (short : Bool) (x now : Nut) : Bool :=
  if short then decide ((BitVec.ofNat 32 (x.toNat >>> 16) - BitVec.ofNat 32 (now.toNat >>> 16)).toInt ≤ 0)
  else decide (x.toNat ≤ now.toNat)

/-- A general pluck is due on this tick: armed, not held, its target reached (R137, R138, R150). -/
def State.genDue (s : State) (g : PluckId) : Bool :=
  s.rBit (Reg.plkStat g) 19 && !s.rBit (Reg.plkStat g) 16 &&
    targetDue (cfgShort (s.plucks.get g).cfg) (s.reg80 (Reg.plkNtgt g)) s.nut

/-- The destinations of the due plucks with an ACTION, together (R146). -/
def State.destOf (s : State) (gs : List PluckId) (act : Nat) : Word :=
  gs.foldl (fun d g => if cfgAction (s.plucks.get g).cfg = act then d ||| (s.plucks.get g).cfg.dest else d) 0

/-- The lateness in ticks of a firing tick found on tick `now`; 0 where it is not late (R139). -/
def lateness (short : Bool) (x now : Nut) : Nat := ((-fireAhead short x now) / 163840).toNat

/-- The least k ≥ 1 that meets a test, sought from an estimate on. -/
def leastK (ok : Nat → Bool) (est : Nat) : Nat :=
  let k0 := max 1 (est - 2)
  match (List.range 8).find? fun i => ok (k0 + i) with
  | some i => k0 + i
  | none => k0 + 8

/-- The periods between a target and this tick, in its own base. -/
def State.periodsPast (s : State) (base : Bool) (t : TunId) (tgt : FullTime) (per : W60) : Nat :=
  if per = 0 then 0
  else if base then ((ftDiff (s.reading t s.nut) tgt) / (per.toNat * 64 : Nat)).toNat
  else ((s.nut - BitVec.ofNat 80 tgt.toNat).toInt / (per.toNat : Int)).toNat

/-- What a general pluck's flags and counts record of a late target (R139, R141). -/
def State.noteLate (s : State) (g : PluckId) (ticks : Nat) : State :=
  s.setReg (Reg.plkLate g) (BitVec.ofNat 20 (min 0xFFFFF ticks))

/-- A general pluck disarmed: it is neither held nor marked. -/
def State.disarmGen (s : State) (g : PluckId) : State :=
  ((s.setPluck g { s.plucks.get g with mark := false }).setBit (Reg.plkStat g) 19 false).setBit (Reg.plkStat g) 16 false

/-- An edge pluck disarmed. -/
def State.disarmEdge (s : State) (o : OutId) : State :=
  let e := s.edges.get o
  ((s.setEdge o { e with pluck := { e.pluck with mark := false } }).setBit (Reg.plkEdgeStat o) 19 false).setBit
    (Reg.plkEdgeStat o) 17 false

/-- General pluck g's target set k periods on and converted on this tick (R142); where the tuning is disabled or a
short-mode target is out of its horizon the pluck disarms (R151). -/
def State.advanceGen (s : State) (g : PluckId) (k : Nat) : State :=
  let p := s.plucks.get g
  let c := p.cfg
  let tgt := advanceTgt (cfgBase c) p.tgt c.per k
  if cfgBase c && !s.tunOn (cfgTun c) then (s.disarmGen g).setBit (Reg.plkStat g) 11 true
  else
    let x := s.targetNut (cfgBase c) (cfgTun c) tgt
    if cfgShort c && !inHorizon x s.nut then (s.disarmGen g).setBit (Reg.plkStat g) 12 true
    else (s.setPluck g { p with tgt := tgt, mark := false }).setRegN (Reg.plkNtgt g) 4 x.toNat

/-- Edge pluck o's target set k periods on (R142, R151). -/
def State.advanceEdge (s : State) (o : OutId) (k : Nat) : State :=
  let e := s.edges.get o
  let c := e.pluck.cfg
  let tgt := advanceTgt (ecfgBase c) e.pluck.tgt c.per k
  if ecfgBase c && !s.tunOn (ecfgTun c) then (s.disarmEdge o).setBit (Reg.plkEdgeStat o) 14 true
  else
    (s.setEdge o { e with pluck := { e.pluck with tgt := tgt, mark := false } }).setRegN (Reg.plkEdgeNtgt o) 4
      (s.targetNut (ecfgBase c) (ecfgTun c) tgt).toNat

/-- The periods a late general pluck advances by: the least k ≥ 1 whose firing tick lies after this tick (FIRE_LATE) or
not before it (SKIP) (R141). -/
def State.lateK (s : State) (g : PluckId) (after : Bool) : Nat :=
  let p := s.plucks.get g
  let c := p.cfg
  let ok := fun k =>
    let d := fireAhead (cfgShort c) (s.targetNut (cfgBase c) (cfgTun c) (advanceTgt (cfgBase c) p.tgt c.per k)) s.nut
    if after then decide (0 < d) else decide (0 ≤ d)
  leastK ok (s.periodsPast (cfgBase c) (cfgTun c) p.tgt c.per)

/-- The tick and fine code of an edge's nut target under CORR (R154). -/
def edgeCode (x : Nut) (corr : Int) : Int × Nat :=
  let c := roundHaz ((x.toNat % 163840 : Nat) : Int) 80 + corr
  (((x.toNat / 163840 : Nat) + c / 2048) * 163840, (c % 2048).toNat)

/-- CORR of an output (R158, R160). -/
def State.edgeCorr (s : State) (o : OutId) : Int := s.rSfld (Reg.plkEdgeCal o) 0 11

/-- The firing tick of an edge pluck's nut target (R154). -/
def State.edgeTick (s : State) (o : OutId) (x : Nut) : Int := (edgeCode x (s.edgeCorr o)).1

/-- An output lost the leading edge at a nut value: it is kept for 3 s (R211). -/
def State.loseEdge (s : State) (o : OutId) (x : Nut) : State :=
  let e := s.edges.get o
  s.setEdge o { e with lostX := x :: e.lostX.filter fun y => !reached s.nut (y + secNut 3) }

/-- A late target of an edge pluck: MISSED, and the pluck skips to the least k whose firing tick is not before this
tick, or disarms if it is not periodic (R155). -/
def State.edgeMissed (s : State) (o : OutId) : State :=
  let p := (s.edges.get o).pluck
  let c := p.cfg
  let x := fun (k : Nat) => s.targetNut (ecfgBase c) (ecfgTun c) (advanceTgt (ecfgBase c) p.tgt c.per k)
  let k := leastK (fun k => decide (s.nut.toNat ≤ s.edgeTick o (x k))) (s.periodsPast (ecfgBase c) (ecfgTun c) p.tgt c.per)
  let s1 := s.setBit (Reg.plkEdgeStat o) 15 true
  if ecfgPeriodic c then
    ((s1.loseEdge o (x (k - 1))).addSat (Reg.plkEdgeMisscnt o) k).advanceEdge o k
  else
    ((s1.loseEdge o (s.reg80 (Reg.plkEdgeNtgt o))).addSat (Reg.plkEdgeMisscnt o) 1).disarmEdge o

/-- An edge target whose firing tick lies before this tick (R155). -/
def State.edgeLate (s : State) (o : OutId) : Bool :=
  decide (s.edgeTick o (s.reg80 (Reg.plkEdgeNtgt o)) < s.nut.toNat)

/-- A re-conversion pass ends when no pluck is marked: RECONV clears and the longest pass is kept (R160). -/
def State.endPass (s : State) : State :=
  let anyMark := (List.finRange 256).any (fun g => (s.plucks.get g).mark) ||
    (List.finRange 8).any (fun o => (s.edges.get o).pluck.mark)
  if s.rBit Reg.plkGstat 19 && !anyMark then
    let d := (s.nut - s.reconvAt).toNat / 163840
    let s1 := s.setBit Reg.plkGstat 19 false
    if (s1.reg Reg.plkReconvMax).toNat < d then s1.setReg Reg.plkReconvMax (BitVec.ofNat 20 (min 0xFFFFF d)) else s1
  else s

/-- The crossing of a request: the host's, or that of the ARMP's course (R469). -/
def PluckReq.xing (r : PluckReq) : Fin 56 :=
  match r.armp with
  | some a => crsXing (courseOf a.1)
  | none => 49

/-- A general pluck's waiting request starts to cross: PENDING, where none crosses and its crossing is not void (R134, R462, R466). -/
def State.startGen (s : State) (g : PluckId) : State :=
  let p := s.plucks.get g
  match p.pend, p.next with
  | none, some r =>
    if s.isVoid r.xing then s
    else
      (((s.setPluck g { p with pend := some r, next := none }).setBit (Reg.plkStat g) 18 true).setBit (Reg.plkStat g) 17
        false).depart r.xing (.gen g)
  | _, _ => s

/-- An edge pluck's waiting request starts to cross (R134, R462, R466). -/
def State.startEdge (s : State) (o : OutId) : State :=
  let e := s.edges.get o
  match e.pluck.pend, e.pluck.next with
  | none, some r =>
    if s.isVoid r.xing then s
    else
      (((s.setEdge o { e with pluck := { e.pluck with pend := some r, next := none } }).setBit (Reg.plkEdgeStat o) 18 true).setBit
        (Reg.plkEdgeStat o) 10 false).depart r.xing (.edge o)
  | _, _ => s

/-- A request that crosses, or waits behind the one that crosses and for its crossing's handshake: BUSY (R134, R466). A general
pluck's. -/
def State.offerPluck (s : State) (g : PluckId) (r : PluckReq) : State :=
  ((s.setPluck g { s.plucks.get g with next := some r }).setBit (Reg.plkStat g) 17 true).startGen g

/-- The same of an edge pluck. -/
def State.offerEdge (s : State) (o : OutId) (r : PluckReq) : State :=
  let e := s.edges.get o
  ((s.setEdge o { e with pluck := { e.pluck with next := some r } }).setBit (Reg.plkEdgeStat o) 10 true).startEdge o

/-! ### Loopback calibration (R158) -/

/-- The next output that HC0 serves: output order, from the one after the last served (R158). -/
def calNext (last : Nat) (w : List OutId) : Option OutId :=
  let order : List OutId := (List.range 8).map fun i => Fin.ofNat 8 (last + 1 + i)
  order.find? fun o => w.contains o

/-- A waiting calibration starts when HC0 is free; when none waits, BUSY clears and a held SEL is applied (R127). -/
def State.calServe (s : State) : State :=
  match s.house.calOut with
  | some _ => s
  | none =>
    match calNext s.house.calLast s.house.calWait with
    | some o =>
      let h := { s.house with
        calOut := some o, calLast := o.val, calWait := s.house.calWait.erase o, calN := 0, calSum := 0, calFrom := s.nut }
      ((({ s with house := h }).setBit (Reg.plkEdgeStat o) 13 true).setBit Reg.pickHc0Ctrl 18 true).setFld
        Reg.pickHc0Ctrl 0 3 o.val
    | none =>
      let s1 := s.setBit Reg.pickHc0Ctrl 18 false
      match s.house.heldSel with
      | some v => ({ s1 with house := { s1.house with heldSel := none } }).setFld Reg.pickHc0Ctrl 0 3 v
      | none => s1

/-- A calibration of an output queued (R158). -/
def State.calQueue (s : State) (o : OutId) : State :=
  if s.house.calWait.contains o || s.house.calOut == some o then s
  else ({ s with house := { s.house with calWait := s.house.calWait ++ [o] } }).calServe

/-- The running calibration ends: AUTO queues another of its output, and the next one starts (R158). -/
def State.calEnd (s : State) (o : OutId) : State :=
  let s1 := ({ s with house := { s.house with calOut := none } }).setBit (Reg.plkEdgeStat o) 13 false
  let s2 := if s1.rBit (Reg.plkEdgeCal o) 19 && !s1.house.calWait.contains o then
      { s1 with house := { s1.house with calWait := s1.house.calWait ++ [o] } } else s1
  s2.calServe

/-- A rising edge of the output under calibration that left unsquelched, with its stamp (R158). -/
def State.calEdge (s : State) (o : OutId) (intended : Nut) (st : Option (Nut × Bool)) : State :=
  match st with
  | some (t, calw) =>
    if s.house.calOut == some o && !calw && decide (s.house.calN < 2 ^ s.rFld (Reg.plkEdgeCal o) 16 3) then
      let h := { s.house with
        calN := s.house.calN + 1, calSum := s.house.calSum + (t - intended).toInt, calFrom := s.nut }
      { s with house := h }
    else s
  | none => s

end Sys2Proof.Machine
end

