-- ==== Sys2Proof/Machine/LoopOps.lean ====
section
/-! DEFINITION. The bridge's loop and holdover model: gains (R189, R192), what a sample does to the loop (R190, R191, R560),
the stored seconds and the model (R194 to R196), and the start of a step sequence (R200). -/

namespace Sys2Proof.Machine

/-- float60 arithmetic inside the bridge, where no operand is infinite or a NaN. -/
def f60Add (a b : W60) : W60 := (fAdd a b).plain
def f60Sub (a b : W60) : W60 := (fSub a b).plain
def f60Mul (a b : W60) : W60 := (fMul a b).plain
def f60Div (a b : W60) : W60 := (fDiv a b).plain
def f60Sqrt (a : W60) : W60 := (fSqrt a).plain
/-- An integer as a float60. -/
def f60Int (n : Int) : W60 := f60OfExact n 0
/-- A float60 with its sign inverted. -/
def f60Neg (a : W60) : W60 := a ^^^ f60Pack true 0 0
/-- The sign of a float60: −1, 0 or 1. -/
def f60Sign (a : W60) : Int := f60Order a (f60Zero false)
/-- The lesser of two float60 values. -/
def f60Min (a b : W60) : W60 := if f60Order b a < 0 then b else a
/-- A float60 held to ±l. -/
def f60Clamp (a l : W60) : W60 :=
  if 0 < f60Order a l then l else if f60Order a (f60Neg l) < 0 then f60Neg l else a

/-- The bridge's hidden state changed. -/
def State.brg (s : State) (f : Bridge → Bridge) : State := { s with bridge := f s.bridge }

/-- A phase in 2⁻¹⁶ ns as float60 seconds (R190). -/
def phaseSec (d : Int) : W60 := f60OfRat d 65536000000000

/-- A phase in float60 seconds as the nearest 2⁻¹⁶ ns. -/
def secPhase (w : W60) : Int :=
  match f60Val w with
  | .fin s m e =>
    let n := signedNat s m * 65536000000000
    if 0 ≤ e then n * (2 : Int) ^ e.toNat else roundHaz n ((2 : Int) ^ (-e).toNat)
  | _ => 0

/-- Φ set, with BRG_PHI and SLEWING (R190, R214). -/
def State.setPhi (s : State) (w : W60) : State :=
  ((s.brg fun b => { b with phi := w }).setRegN Reg.brgPhi 3 (satSigned 60 (secPhase w)).toNat).setBit Reg.brgLoopStat 19
    (f60Sign w != 0)

/-- I set, with BRG_INTEG (R214). -/
def State.setInteg (s : State) (w : W60) : State :=
  (s.brg fun b => { b with integ := w }).setRegN Reg.brgInteg 2 (satSigned 40 (f60Near w)).toNat

/-- SRC of a slot (R161): 0 OFF, 1 PPS, 2 PICK_FREQ, 3 FMU, 4 POSTED. -/
def State.rsSrc (s : State) (r : SlotId) : Nat := s.rFld (Reg.brgRsCfg r) 17 3
/-- UNIT of a slot. -/
def State.rsUnit (s : State) (r : SlotId) : Nat := s.rFld (Reg.brgRsCfg r) 14 3
/-- A time slot (R161). -/
def State.isTimeSlot (s : State) (r : SlotId) : Bool := s.rsSrc r == 1 || s.rsSrc r == 4
/-- BRG_SEL_STAT.SLOT: the incumbent, or the target of a switch. -/
def State.selSlot (s : State) : SlotId := Fin.ofNat 16 (s.rFld Reg.brgSelStat 12 4)

/-- f_s / 10 of the selected slot, from its last 16 samples, in units of hertz as a quotient (R192); none with fewer than
two samples. -/
def sampleLimit (recent : List Nut) : Option Frac :=
  match recent with
  | newest :: _ =>
    match recent.getLast? with
    | some oldest =>
      let span := (newest - oldest).toNat
      if span = 0 then none
      else some { num := ((recent.length - 1) * 65536000000000 : Nat), den := 10 * span }
    | none => none
  | [] => none

/-- The loop's bandwidth in hertz, and BW_LIM (R189, R192). -/
def State.loopBw (s : State) (r : SlotId) : W60 × Bool :=
  let bw : Nat := if s.isTimeSlot r then s.rFld Reg.brgBwTime 0 17 else s.rFld Reg.brgBwFreq 0 17
  match sampleLimit (s.slots.get r).recent with
  | some l =>
    if l.num * 10000 < (bw * l.den : Nat) then (f60OfRat l.num l.den, true) else (f60OfRat bw 10000, false)
  | none => (f60OfRat bw 10000, false)

/-- Kp and Ki (R189). -/
def State.loopGains (s : State) (bw : W60) : W60 × W60 :=
  let z := f60OfRat (s.rFld Reg.brgDamp 0 10 : Nat) 16
  let a := f60Add (f60Int 1) (f60Mul (f60Int 2) (f60Mul z z))
  let g := f60Sqrt (f60Add a (f60Sqrt (f60Add (f60Mul a a) (f60Int 1))))
  let wn := f60Div (f60Mul f60TwoPi bw) g
  (f60Mul (f60Mul (f60Int 2) z) wn, f60Mul wn wn)

/-- 10¹⁴ as a float60. -/
def f60E14 : W60 := f60Int 100000000000000

/-- L = BRG_SLEW in rate units: 1 ps/s is 100 of them (R190). -/
def State.slewLimit (s : State) : W60 := f60Int ((s.reg Reg.brgSlew).toNat * 100 : Nat)

/-- P + R for the Φ in force (R190): the ramp is 0 where Φ is 0, and in the frequency-only state (R560). -/
def State.loopSum (s : State) : W60 :=
  if s.bridge.fonly then s.bridge.p
  else
    let ramp := f60Min s.slewLimit (f60Mul (s.bridge.phi &&& ~~~(f60Pack true 0 0)) (f60Int 100000000000000000))
    match f60Sign s.bridge.phi with
    | 1 => f60Sub s.bridge.p ramp
    | -1 => f60Add s.bridge.p ramp
    | _ => s.bridge.p

/-- Qc from P + R (R190). -/
def State.setQc (s : State) : State := s.brg fun b => { b with qc := f60Clamp s.loopSum s.slewLimit }

/-- An accepted sample of the selected time slot in TRACKING (R190, R560): d in 2⁻¹⁶ ns, τ in nut units. -/
def State.timeSample (s : State) (r : SlotId) (d : Int) (tau : Nat) : State :=
  let (bw, lim) := s.loopBw r
  let (kp, ki) := s.loopGains bw
  let e := f60Sub (phaseSec d) s.bridge.phi
  let s0 := s.setBit Reg.brgLoopStat 18 lim
  let s1 := s0.brg fun b => { b with lastD := d, p := f60Neg (f60Mul (f60Mul kp e) f60E14) }
  let s2 := s1.setQc
  let inside := f60Order (s1.loopSum &&& ~~~(f60Pack true 0 0)) s1.slewLimit ≤ 0
  let t := f60OfRat (tau : Nat) 65536000000000
  let s3 := if inside then s2.setInteg (f60Sub s2.bridge.integ (f60Mul (f60Mul (f60Mul ki e) t) f60E14)) else s2
  if s3.bridge.fonly then s3.setPhi (phaseSec d) else s3

/-- A gate result of the selected frequency slot in TRACKING (R191): Y in rate units, τ the gate's length in nut units. -/
def State.freqSample (s : State) (r : SlotId) (y : Int) (tau : Nat) : State :=
  let (bw, lim) := s.loopBw r
  let g := f60Min (f60Int 1) (f60Mul (f60Mul f60TwoPi bw) (f60OfRat (tau : Nat) 65536000000000))
  let s1 := (s.setBit Reg.brgLoopStat 18 lim).brg fun b => { b with p := f60Zero false, qc := f60Zero false }
  s1.setInteg (f60Add s1.bridge.integ (f60Mul g (f60Sub (f60Int y) s1.bridge.integ)))

/-! ### The model (R194 to R196) -/

/-- The stored seconds of the averaging window. -/
def State.avgSecs (s : State) : List (Nut × Int) := s.bridge.secs.take (s.rFld Reg.brgHoAvg 0 16)

/-- The sum of the stored means, each 1,000 update ticks of I in 2⁻¹⁶ rate units. -/
def sumSecs (l : List (Nut × Int)) : Int := l.foldl (fun n e => n + e.2) 0

/-- r̄ in rate units (R194). -/
def State.rBar (s : State) : Frac :=
  let l := s.avgSecs
  if l.isEmpty then { num := 0, den := 1 } else { num := sumSecs l, den := l.length * 65536000 }

/-- The mean of the midpoints of stored seconds: t_c of the averaging window (R194). -/
def midSecs (l : List (Nut × Int)) : Nut :=
  if l.isEmpty then 0
  else BitVec.ofNat 80 (l.foldl (fun n e => n + (e.1.toNat + 32768000000000)) 0 / l.length)

/-- t_c (R194). -/
def State.tCentre (s : State) : Nut := midSecs s.avgSecs

/-- MODEL_VALID (R194). -/
def State.modelValid (s : State) : Bool := 60 ≤ s.bridge.secs.length

/-- The one-minute means of stored seconds, newest first: the midpoint in seconds since `t0` and the sum of 60 seconds. -/
def minuteMeans (l : List (Nut × Int)) : Nat → List (Nut × Int)
  | 0 => []
  | k + 1 => (midSecs (l.take 60), sumSecs (l.take 60)) :: minuteMeans (l.drop 60) k

/-- The least-squares slope of points (x, y) as a quotient; 0 where they do not spread. -/
def slopeOf (l : List (Int × Int)) : Int × Int :=
  let n : Int := l.length
  let sx := l.foldl (fun a e => a + e.1) 0
  let sy := l.foldl (fun a e => a + e.2) 0
  let sxx := l.foldl (fun a e => a + e.1 * e.1) 0
  let sxy := l.foldl (fun a e => a + e.1 * e.2) 0
  (n * sxy - sx * sy, n * sxx - sx * sx)

/-- AGE_VALID: the ageing window is full of stored seconds (R195). -/
def State.ageValid (s : State) : Bool := s.rFld Reg.brgHoAgewin 0 8 * 3600 ≤ s.bridge.secs.length

/-- a in rate units per day (R195); 0 until AGE_VALID. -/
def State.ageSlope (s : State) : Frac :=
  if s.ageValid then
    let ms := minuteMeans s.bridge.secs (s.rFld Reg.brgHoAgewin 0 8 * 60)
    let (num, den) := slopeOf (ms.map fun e => ((e.1.toNat : Int), e.2))
    if den = 0 then { num := 0, den := 1 }
    else { num := num * 86400 * 65536000000000 * den.sign, den := den.natAbs * 60 * 65536000 }
  else { num := 0, den := 1 }

/-- a as it enters m̂ and the holdover rate (R195). -/
def State.ageUsed (s : State) : Frac :=
  if s.rBit Reg.brgLoopCtrl 17 && s.ageValid then s.ageSlope else { num := 0, den := 1 }

/-- The rate r̄ + a × (t − t_c) / 86,400 s at nut value n, in rate units (R194, R196). -/
def driftRate (r a : Frac) (tc n : Nut) : Frac :=
  let day : Nat := 86400 * 65536000000000
  { num := r.num * (a.den * day : Nat) + a.num * ((n.toNat : Int) - tc.toNat) * r.den, den := r.den * a.den * day }

/-- m̂ at this tick in rate units (R194); 0 until MODEL_VALID. -/
def State.mHat (s : State) : Frac :=
  if s.modelValid then
    let q := driftRate s.rBar s.ageUsed s.tCentre s.nut
    { num := -q.num, den := q.den }
  else { num := 0, den := 1 }

/-- The model's registers (R214). -/
def State.showModel (s : State) : State :=
  let sat := fun (q : Frac) => (satSigned 40 (roundHaz q.num q.den)).toNat
  ((((s.setRegN Reg.brgHoRate 2 (sat s.rBar)).setRegN Reg.brgHoAge 2 (sat s.ageSlope)).setRegN Reg.brgModel 2
    (sat s.mHat)).setBit Reg.brgHoStat 16 s.modelValid).setBit Reg.brgHoStat 15 s.ageValid

/-- E(h) in BRG_HO_TE (R197): to the nearest ns, saturating. -/
def State.showTe (s : State) : State :=
  s.setRegN Reg.brgHoTe 2 (min (2 ^ 40 - 1) (roundHaz (s.teNum : Nat) (teDen : Nat)).toNat)

/-! ### Selection states and the step sequence -/

/-- The selection state entered (R175, R182, R188, R194, R196, R197). -/
def State.setSelState (s : State) (st : Nat) : State :=
  let old := s.selState
  let s1 := (s.setFld Reg.brgSelStat 17 3 st).orReg Reg.brgCause
    (if st = BS.holdover ∧ old ≠ BS.holdover then 0xA0000 else 0x80000)
  let s2 := s1.brg fun b =>
    if st = BS.tracking then { b with accBad := true }
    else { b with accBad := true, p := f60Zero false, qc := f60Zero false }
  let s3 :=
    if st = BS.holdover && old != BS.holdover then
      let rate : Frac := if s2.modelValid then s2.rBar
        else { num := f60Near (f60Mul s2.bridge.integ (f60Int 65536)), den := 65536 }
      let a : Frac := if s2.modelValid then s2.ageUsed else { num := 0, den := 1 }
      let t := s2.brg fun b =>
        { b with hoR := rate, hoA := a, hoTc := s2.tCentre, hoAt := s2.nut, hoE0 := b.e0, hoKeep := false, fonly := false }
      ((t.setRegN Reg.brgHoElapsed 2 0).showTe).setBit Reg.brgLoopStat 17 false
    else s2
  s3.ladder

/-- A step sequence of S (2⁻¹⁶ ns) decided on this tick (R200); one that runs already goes on. -/
def State.startStep (s : State) (v : Int) : State :=
  if s.rBit Reg.brgLoopStat 16 then s
  else
    (((s.brg fun b => { b with stepAt := some s.nut, stepQ := none, stepped := false, fonly := true }).setBit
      Reg.brgLoopStat 16 true).setBit Reg.brgLoopStat 17 false).setRegN Reg.brgStepVal 3 (satSigned 60 v).toNat

/-- The completion of a switch onto slot r (R193, R199, R559, R560): `left` is the state it began in, `e` the mean of the
settle samples' d, `last` the latest one's. -/
def State.switchDone (s : State) (r : SlotId) (left : Nat) (e : Frac) (last : Int) : State :=
  let opened := left == BS.freerun || left == BS.holdover
  let s0 := (s.brg fun b => { b with p := f60Zero false, qc := f60Zero false, fonly := false, lastRs := some r, tracked := true,
                                       lastD := if s.isTimeSlot r then last else b.lastD }).setBit Reg.brgLoopStat 17 false
  let s1 := if opened then (s0.setInteg (f60OfRat s0.bridge.rf 65536)).brg fun b => { b with hoKeep := left == BS.holdover }
    else s0
  let mean := f60OfRat e.num (e.den * 65536000000000)
  let s2 :=
    if s1.isTimeSlot r then
      if !opened then s1.setPhi mean
      else
        let big := decide (((s1.reg Reg.brgStepThr).toNat * 65536 * e.den : Nat) < e.num.natAbs)
        let pol := s1.rFld Reg.brgLoopCtrl 18 2
        if s1.tunUnset 0 || (big && pol == 1) then (s1.setPhi mean).startStep (-(roundHaz e.num e.den))
        else if big && pol == 2 then
          (((s1.setPhi (phaseSec last)).brg fun b => { b with fonly := true }).setBit Reg.brgLoopStat 17 true).orReg
            Reg.brgLcause 0x80000
        else s1.setPhi mean
    else s1
  let e0 := if s2.isTimeSlot r then (secPhase (f60Sub (phaseSec last) s2.bridge.phi)).natAbs else 0
  s2.brg fun b =>
    { b with e0 := e0,
             hoKeep := b.hoKeep && (f60Sign b.phi != 0 || s2.rBit Reg.brgLoopStat 16 || s2.rBit Reg.brgLoopStat 17) }

end Sys2Proof.Machine
end

