-- ==== Sys2Proof/Machine/BridgeOps.lean ====
section
/-! DEFINITION. Reference slots and selection: faults and states (R169 to R172), selection (R173 to R177), phase samples and
outliers (R162, R166, R170), gate results, posts (R164, R165), route changes (R180, R181) and votes (R178, R179). -/

namespace Sys2Proof.Machine

/-- BRG_RS_STAT.STATE codes (R183). -/
abbrev RS.disabled : Nat := 0
abbrev RS.fault : Nat := 1
abbrev RS.qualifying : Nat := 2
abbrev RS.wtr : Nat := 3
abbrev RS.available : Nat := 4
abbrev RS.selected : Nat := 5

/-- BRG_RS_STAT fault bits (R169, R183). -/
abbrev RF.noSample : Nat := 15
abbrev RF.los : Nat := 14
abbrev RF.freq : Nat := 13
abbrev RF.phase : Nat := 12
abbrev RF.dnu : Nat := 11
abbrev RF.outvoted : Nat := 10
abbrev RF.suspect : Nat := 9
abbrev RF.route : Nat := 8
abbrev RF.asym : Nat := 7

/-- A slot's hidden state changed. -/
def State.slot (s : State) (r : SlotId) (f : Slot → Slot) : State :=
  { s with slots := vset s.slots r (f (s.slots.get r)) }

/-- A slot's state. -/
def State.rsState (s : State) (r : SlotId) : Nat := s.rFld (Reg.brgRsStat r) 17 3
/-- Whether a slot has any fault (R169). -/
def State.rsFaulty (s : State) (r : SlotId) : Bool := s.rFld (Reg.brgRsStat r) 7 9 != 0
/-- Whether a slot's faults all belong to the hold-off class (R169). -/
def State.rsHoldClass (s : State) (r : SlotId) : Bool := s.rFld (Reg.brgRsStat r) 7 5 == 0
/-- A slot's HOLDOFF bit. -/
def State.rsHeld (s : State) (r : SlotId) : Bool := s.rBit (Reg.brgRsStat r) 16
/-- A fault bit set or cleared. -/
def State.setFault (s : State) (r : SlotId) (bit : Nat) (v : Bool) : State := s.setBit (Reg.brgRsStat r) bit v

/-- A slot enters a state (R171): the change is a cause (R182), and the state's timer starts. -/
def State.setRs (s : State) (r : SlotId) (st : Nat) : State :=
  if s.rsState r = st then s
  else
    let s1 := (s.setFld (Reg.brgRsStat r) 17 3 st).orReg Reg.brgCause (BitVec.ofNat 20 (2 ^ r.val))
    let timed := st == RS.qualifying || st == RS.wtr
    let s2 := s1.slot r fun x =>
      { x with timer := if timed then some s.nut else none,
               been := x.been || st == RS.available || st == RS.selected,
               expired := x.expired && st != RS.qualifying }
    if st = RS.available then s2.setBit (Reg.brgRsStat r) 3 false else s2

/-- A slot goes to FAULT (R171): it then owes a wait-to-restore where it has been AVAILABLE. -/
def State.rsToFault (s : State) (r : SlotId) : State :=
  let s1 := (s.setBit (Reg.brgRsStat r) 16 false).slot r fun x => { x with hold := none }
  let s2 := if (s1.slots.get r).been then s1.setBit (Reg.brgRsStat r) 3 true else s1
  s2.setRs r RS.fault

/-- A slot that holds off in place of going to FAULT: SELECTED, or AVAILABLE as the target of a switch (R171). -/
def State.rsSteers (s : State) (r : SlotId) : Bool :=
  s.selSlot == r &&
    ((s.selState == BS.switching && s.rsState r == RS.available) ||
     ((s.selState == BS.tracking || s.selState == BS.holdoff) && s.rsState r == RS.selected))

/-- A slot after a change of its faults (R171, R175). -/
def State.rsUpdate (s : State) (r : SlotId) : State :=
  if s.rsState r = RS.disabled then s
  else if s.rsFaulty r then
    if s.rsSteers r && s.rsHoldClass r && !(s.slots.get r).expired && s.reg Reg.brgHoldoff != 0 then
      if s.rsHeld r then s
      else (s.setBit (Reg.brgRsStat r) 16 true).slot r fun x => { x with hold := some s.nut }
    else if s.rsState r = RS.fault then s
    else s.rsToFault r
  else
    let s1 := if s.rsHeld r then (s.setBit (Reg.brgRsStat r) 16 false).slot r fun x => { x with hold := none } else s
    if s1.rsState r = RS.fault then s1.setRs r RS.qualifying else s1

/-- The rank (PRIO, QL) of a slot as one number (R173). -/
def State.rsRank (s : State) (r : SlotId) : Nat := s.rFld (Reg.brgRsCfg r) 10 4 * 16 + s.rFld (Reg.brgRsCfg r) 6 4

/-- A candidate of AUTO mode (R173). -/
def State.rsCandidate (s : State) (r : SlotId) : Bool :=
  s.rFld (Reg.brgRsCfg r) 10 4 != 0 &&
    (s.rsState r == RS.available || (s.rsState r == RS.selected && !s.rsHeld r))

/-- The highest-ranked of some slots, the lowest number among equals. -/
def State.bestOf (s : State) : List SlotId → Option SlotId
  | [] => none
  | r :: rs =>
    match s.bestOf rs with
    | some q => if s.rsRank q < s.rsRank r then some q else some r
    | none => some r

/-- The slot that selection chooses (R173, R174). -/
def State.chooseRs (s : State) : Option SlotId :=
  match s.rFld Reg.brgSelCtrl 18 2 with
  | 0 =>
    let c := (List.finRange 16).filter s.rsCandidate
    let inc := s.selState == BS.tracking && c.contains s.selSlot
    if inc && !s.rBit Reg.brgSelCtrl 17 then some s.selSlot
    else
      match s.bestOf c with
      | some q => if inc && s.rsRank s.selSlot == s.rsRank q then some s.selSlot else some q
      | none => none
  | 1 =>
    let f : SlotId := Fin.ofNat 16 (s.rFld Reg.brgSelCtrl 12 4)
    if s.rsState f = RS.wtr ∨ s.rsState f = RS.available ∨ s.rsState f = RS.selected then some f else none
  | _ => none

/-- The incumbent leaves SELECTED because another slot was chosen (R171): a fault it held off then takes it to FAULT. -/
def State.deselect (s : State) : State :=
  let r := s.selSlot
  if (s.selState == BS.tracking || s.selState == BS.holdoff) && s.rsState r == RS.selected then
    (((s.setBit (Reg.brgRsStat r) 16 false).slot r fun x => { x with hold := none }).setRs r RS.available).rsUpdate r
  else s

/-- A switch to a chosen slot, or to HOLDOVER (FREERUN before any switch has completed) where there is none (R175, R177). -/
def State.switchTo (s : State) (dest : Option SlotId) (reason : Nat) : State :=
  let old := s.selState
  let prev := s.selSlot
  let s0 := if old = BS.switching then s else s.brg fun b => { b with origin := old }
  match dest with
  | none =>
    let s1 := s0.deselect.setSelState (if s0.bridge.tracked then BS.holdover else BS.freerun)
    (s1.setFld Reg.brgSelStat 12 4 0).setFld Reg.brgSelStat 5 7 0
  | some r =>
    let fromNone := s0.bridge.origin == BS.freerun || s0.bridge.origin == BS.holdover
    let s1 := s0.deselect
    let s2 := (s1.addSat Reg.brgSwCnt 1).setReg Reg.brgSwLast
      (BitVec.ofNat 20 ((if fromNone then 0 else prev.val * 65536) + fromNone.toNat * 32768 + r.val * 2048 + reason * 256))
    let s3 := ((s2.brg fun b => { b with settle := [] }).setFld Reg.brgSelStat 12 4 r).setFld Reg.brgSelStat 5 7 0
    s3.setSelState BS.switching

/-- Selection, run once after the slot changes of a tick (R172 to R177). `rank`: a rank changed. -/
def State.runSelect (s : State) (rank : Bool) : State :=
  let inc := s.selSlot
  let why := if (s.slots.get inc).expired then 1 else 0
  let st := s.selState
  if st = BS.switching then
    if s.rsState inc = RS.disabled ∨ s.rsState inc = RS.fault ∨ s.rsState inc = RS.qualifying then
      s.switchTo s.chooseRs why
    else s
  else if st = BS.holdoff then
    if s.rsState inc ≠ RS.selected then s.switchTo s.chooseRs why
    else if s.rFld Reg.brgSelCtrl 18 2 = 2 then s.switchTo none 0
    else if !s.rsHeld inc then s.setSelState BS.tracking
    else s
  else if st = BS.tracking then
    if s.rsState inc ≠ RS.selected then s.switchTo s.chooseRs why
    else if s.rFld Reg.brgSelCtrl 18 2 = 2 then s.switchTo none 0
    else if s.rsHeld inc then s.setSelState BS.holdoff
    else
      match s.chooseRs with
      | some q => if q = inc then s
                  else s.switchTo (some q) (if s.rFld Reg.brgSelCtrl 18 2 = 1 then 3 else if rank then 4 else 2)
      | none => s.switchTo none 0
  else
    match s.chooseRs with
    | some q => s.switchTo (some q) 5
    | none => s

/-- Selection is to run at the end of this tick, after its slot changes (R172, R174); `rank`: a rank changed. -/
def State.wantSelect (s : State) (rank : Bool) : State :=
  s.brg fun b => { b with selDue := some (rank || b.selDue.getD false) }

/-- A timer of slot r has expired on this tick: what it does is settled at the end of the tick (R172). -/
def State.timerDue (s : State) (r : SlotId) : State := (s.slot r fun x => { x with due := true }).wantSelect false

/-- A slot's running timer has lasted `d` (R171). -/
def State.rsTimerDone (s : State) (r : SlotId) (d : Nut) : Bool :=
  match (s.slots.get r).timer with
  | some t => reached s.nut (t + d)
  | none => false

/-- A slot's hold-off has lasted BRG_HOLDOFF ms with a fault present (R171, R175). -/
def State.holdoffOver (s : State) (r : SlotId) : Bool :=
  match (s.slots.get r).hold with
  | some t => s.rsHeld r && s.rsFaulty r && reached s.nut (t + msNut (s.rFld Reg.brgHoldoff 0 14))
  | none => false

/-- QUALIFYING has lasted BRG_QUAL_TIME s with no fault (R171). -/
def State.qualOver (s : State) (r : SlotId) : Bool :=
  s.rsState r == RS.qualifying && !s.rsFaulty r && s.rsTimerDone r (secNut (s.rFld Reg.brgQualTime 0 10))

/-- WTR has lasted BRG_WTR s with no fault (R171). -/
def State.wtrOver (s : State) (r : SlotId) : Bool :=
  s.rsState r == RS.wtr && !s.rsFaulty r && s.rsTimerDone r (secNut (s.rFld Reg.brgWtr 0 12))

/-- The expired timer of slot r at the end of its tick (R171, R172): void where an event of the tick has undone what it watched. -/
def State.timerEnds (s : State) (r : SlotId) : State :=
  let s0 := s.slot r fun x => { x with due := false }
  if !(s.slots.get r).due then s
  else if s0.holdoffOver r then (s0.slot r fun x => { x with expired := true }).rsToFault r
  else if s0.qualOver r then s0.setRs r (if s0.rBit (Reg.brgRsStat r) 3 then RS.wtr else RS.available)
  else if s0.wtrOver r then s0.setRs r RS.available
  else s0

/-- The end of a tick in the bridge (R172): the timers that expired, then selection once. -/
def State.bridgeEndTick (s : State) : State :=
  match s.bridge.selDue with
  | some rank => ((foldFin 16 (fun r u => u.timerEnds r) s).brg fun b => { b with selDue := none }).runSelect rank
  | none => s

/-! ### Samples -/

/-- ∫ r dn of T0's rate over [lo, hi), the rates newest first (R163, R170). -/
def rateIntegral : List (Nut × Rate) → Int → Int → Int
  | [], _, _ => 0
  | [(_, r)], lo, hi => if hi ≤ lo then 0 else (hi - lo) * r.toInt
  | (n, r) :: l, lo, hi =>
    if hi ≤ lo then 0
    else if (n.toNat : Int) ≤ lo then (hi - lo) * r.toInt
    else if (n.toNat : Int) < hi then (hi - n.toNat) * r.toInt + rateIntegral l lo n.toNat
    else rateIntegral l lo hi

/-- y_n of a slot (R163). -/
def State.yN (s : State) (r : SlotId) : Int := (s.reg40 (Reg.brgRsFreq r)).toInt
/-- YN_VALID of a slot. -/
def State.yValid (s : State) (r : SlotId) : Bool := s.rBit (Reg.brgRsStat r) 2

/-- Whether a phase sample lies within PLIM of the prediction from an earlier one (R170). -/
def State.predicted (s : State) (r : SlotId) (nm0 : Nut) (d0 : Int) (nm : Nut) (d : Int) : Bool :=
  let dt : Int := (nm.toNat : Int) - nm0.toNat
  let drift := if s.yValid r then rateIntegral s.bridge.rates nm0.toNat nm.toNat - s.yN r * dt else 0
  let lim : Int := (s.reg (Reg.brgRsPlim r)).toNat * 65536
  decide (((d - d0) * rateDen - drift).natAbs ≤ (lim * rateDen).natAbs)

/-- A sample discarded (R166, R170). -/
def State.rsDrop (s : State) (r : SlotId) (k : Nat) : State := s.addSat (Reg.brgRsDropcnt r) k

/-- A sample taken: NO_SAMPLE's time runs anew (R169), and its instant counts for f_s (R192). -/
def State.rsFed (s : State) (r : SlotId) (n : Nut) : State :=
  ((s.slot r fun x => { x with fedAt := s.nut, got := true, recent := (n :: x.recent).take 16 }).setFault r RF.noSample
    false).rsUpdate r

/-- The settle samples are complete: the target is SELECTED, the loop takes over, and selection runs again (R175, R176). -/
def State.completeSwitch (s : State) (r : SlotId) (last : Int) : State :=
  let l := s.bridge.settle
  let e : Frac := { num := l.foldl (· + ·) 0, den := max 1 l.length }
  ((s.setRs r RS.selected).switchDone r s.bridge.origin e last).setSelState BS.tracking

/-- What an accepted sample of slot r does to selection and the loop (R175, R176, R188, R190, R191): none while the slot
was held off or its route has changed. -/
def State.useSample (s : State) (r : SlotId) (held : Bool) (v : Int) (tau : Nat) : State :=
  if s.selSlot != r || held || s.rBit (Reg.brgRsStat r) RF.route then s
  else if s.selState = BS.tracking ∧ s.rsState r = RS.selected then
    if s.isTimeSlot r then s.timeSample r v tau else s.freqSample r v tau
  else if s.selState = BS.switching ∧ (s.rsState r = RS.wtr ∨ s.rsState r = RS.available) then
    let s1 := s.brg fun b => { b with settle := b.settle ++ [if s.isTimeSlot r then v else 0] }
    let n := s1.bridge.settle.length
    let s2 := s1.setFld Reg.brgSelStat 5 7 n
    if s2.rFld Reg.brgSwSettle 0 7 ≤ n then s2.completeSwitch r v else s2
  else s

/-- A phase sample accepted (R163, R170, R183, R197). -/
def State.acceptPhase (s : State) (r : SlotId) (held : Bool) (nm : Nut) (d : Int) (mpd : Option Nat) : State :=
  let x := s.slots.get r
  let tau := if x.got then (nm - s.reg80 (Reg.brgRsLastnm r)).toNat else 0
  let s1 := (s.setRegN (Reg.brgRsLastd r) 3 (satSigned 60 d).toNat).setRegN (Reg.brgRsLastnm r) 4 nm.toNat
  let s2 := s1.slot r fun x =>
    { x with win := if s1.rBit (Reg.brgRsStat r) RF.route then x.win else (nm, d) :: x.win,
             mpds := (mpd.toList ++ x.mpds).take 8 }
  let s3 := if s2.bridge.lastRs = some r then
      s2.brg fun b => { b with e0 := (secPhase (f60Sub (phaseSec d) b.phi)).natAbs } else s2
  (s3.rsFed r nm).useSample r held d tau

/-- The sums of a cross-check that a phase sample enters (R181). -/
def State.crossSums (s : State) (r : SlotId) (d : Int) : State :=
  let s1 := if (s.slots.get r).route.isSome then s.slot r fun x => { x with xSum := x.xSum + d, xN := x.xN + 1 } else s
  foldFin 16 (fun k u =>
    if (u.slots.get k).route.isSome && (u.slots.get k).xref == some r then
      u.slot k fun x => { x with gSum := x.gSum + d, gN := x.gN + 1 }
    else u) s1

/-- A phase sample that reaches a time slot (R170): accepted, an outlier, or a step of a recovery run. -/
def State.phaseSample (s : State) (r : SlotId) (nm : Nut) (d : Int) (mpd : Option Nat) : State :=
  let x := s.slots.get r
  let held := s.rsHeld r
  if s.rsState r = RS.disabled then s
  else if s.rBit (Reg.brgRsStat r) RF.phase then
    let run :=
      match x.run with
      | (n0, d0, _) :: _ => if s.predicted r n0 d0 nm d then x.run ++ [(nm, d, mpd)] else [(nm, d, mpd)]
      | [] => [(nm, d, mpd)]
    let s1 := if run.length = 1 then s.rsDrop r x.run.length else s
    if run.length < 3 then s1.slot r fun x => { x with run := run }
    else
      let s2 := (s1.slot r fun x => { x with run := [], outs := 0 }).setFault r RF.phase false
      run.foldl (fun u e => (u.crossSums r e.2.1).acceptPhase r held e.1 e.2.1 e.2.2) s2
  else if x.got && !s.predicted r (s.reg80 (Reg.brgRsLastnm r)) (BitVec.ofNat 60 (s.regN (Reg.brgRsLastd r) 3)).toInt nm d then
    let s1 := (s.rsDrop r 1).slot r fun x => { x with outs := x.outs + 1 }
    if 3 ≤ x.outs + 1 then ((s1.slot r fun x => { x with run := [] }).setFault r RF.phase true).rsUpdate r else s1
  else ((s.slot r fun x => { x with outs := 0 }).crossSums r d).acceptPhase r held nm d mpd

/-- d of a PPS stamp (R162), in 2⁻¹⁶ ns: V less the multiple of P nearest V − DELAY, less DELAY. -/
def State.ppsPhase (s : State) (r : SlotId) (n : Nut) : Int :=
  let delay := (s.reg60 (Reg.brgRsDelay r)).toInt
  let v := ftUnits (s.reading 0 n)
  let p : Int := (s.reg (Reg.brgRsPeriod r)).toNat * 1000000 * 4194304
  let w := v - delay * 64
  let k := if p < 2 * (w % p) then w / p + 1 else w / p
  roundHaz (v - k * p) 64 - delay

/-- A stamp of pick p reaches the PPS slots that name it (R161, R166, R174). -/
def State.ppsStamp (s : State) (p : PickId) (st : Stamp) : State :=
  foldFin 16 (fun r u =>
    if u.rsSrc r == 1 && u.rsUnit r == p.val then
      if st.single || st.calw then u.rsDrop r 1 else (u.phaseSample r st.t (u.ppsPhase r st.t) none).wantSelect false
    else u) s

/-- A gate result accepted by a frequency slot (R163, R191). -/
def State.gateSample (s : State) (r : SlotId) (opn cls : Nut) (y : Int) : State :=
  let held := s.rsHeld r
  ((s.slot r fun x => { x with gates := (opn, cls, y) :: x.gates }).rsFed r cls).useSample r held y (cls - opn).toNat

/-- A frequency slot that names a unit's gates (R161). -/
def State.takesGates (s : State) (r : SlotId) : GateUnit → Bool
  | .pick p => s.rsSrc r == 2 && s.rsUnit r == p.val
  | .fmu u => s.rsSrc r == 3 && s.rsUnit r == u.val

/-- A gate result reaches the frequency slots of its unit (R161, R166): `flags` holds the bits of RES_STAT. -/
def State.gateResultTo (s : State) (u : GateUnit) (opn cls : Nut) (y : Int) (bad : Bool) : State :=
  if (List.finRange 16).any fun (r : SlotId) => s.takesGates r u then
    (foldFin 16 (fun r t =>
      if t.takesGates r u && reached cls (t.slots.get r).cfgAt then
        if bad then t.rsDrop r 1 else t.gateSample r opn cls y
      else t) s).wantSelect false
  else s

/-- LOS of a slot's input as it now stands (R169). -/
def State.rsInputLos (s : State) (r : SlotId) : Bool :=
  match s.rsSrc r with
  | 1 => s.rBit (Reg.pickStat (s.rsUnit r)) 19
  | 2 => s.rBit (Reg.pickStat (s.rsUnit r)) 19
  | 3 => s.rBit (Reg.brgFmuStat (s.rsUnit r)) 19
  | _ => false

/-- A slot's LOS fault differs from its input's LOS (R169). -/
def State.rsLosDue (s : State) (r : SlotId) : Bool :=
  s.rsState r != RS.disabled && s.rBit (Reg.brgRsStat r) RF.los != s.rsInputLos r

/-- Every slot's LOS fault follows its input (R169), then selection. -/
def State.rsLos (s : State) : State :=
  if (List.finRange 16).any fun (r : SlotId) => s.rsLosDue r then
    (foldFin 16 (fun r u =>
      if u.rsLosDue r then (u.setFault r RF.los (u.rsInputLos r)).rsUpdate r else u) s).wantSelect false
  else s

/-! ### Posts (R164, R165, R180) -/

/-- QL of a slot written: DNU is QL 15 (R169). -/
def State.setQl (s : State) (r : SlotId) (q : Nat) : State :=
  ((s.setFld (Reg.brgRsCfg r) 6 4 q).setFault r RF.dnu (q == 15)).rsUpdate r

/-- POST_ERR and its cause (R165). -/
def State.postErr (s : State) (r : SlotId) : State :=
  (s.setBit (Reg.brgRsStat r) 6 true).orReg Reg.brgCause 0x10000

/-- The lower median pair of the kept MPD values, halved to the nearest: M (R180). -/
def medianMpd (l : List Nat) : Option Nat :=
  let m := l.mergeSort (· ≤ ·)
  match m[(m.length - 1) / 2]?, m[m.length / 2]? with
  | some a, some b => some (roundHaz ((a + b : Nat) : Int) 2).toNat
  | _, _ => none

/-- The GNSS slot a cross-check is made against (R180): the SELECTED one, else the lowest AVAILABLE one. -/
def State.gnssSlot (s : State) : Option SlotId :=
  let g := (List.finRange 16).filter fun (r : SlotId) => s.rBit (Reg.brgRsCfg r) 4
  match g.find? fun r => s.rsState r == RS.selected with
  | some r => some r
  | none => g.find? fun r => s.rsState r == RS.available

/-- A route change of slot r (R180): the history restarts, a wait-to-restore is owed, and the cross-check or its wait
begins. -/
def State.routeChange (s : State) (r : SlotId) (mpd : Option Nat) : State :=
  let g := s.gnssSlot
  let s1 := s.slot r fun x =>
    { x with mpds := mpd.toList, route := some s.nut, xref := g, xSum := 0, xN := 0, gSum := 0, gN := 0 }
  let s2 := (s1.setFld (Reg.brgRsStat r) 4 2 (if g.isSome then 1 else 0)).setBit (Reg.brgRsStat r) 3 true
  (s2.setFault r RF.route true).rsUpdate r

/-- What a post is refused for (R165): 0 accepted, 1 the slot takes no such post, 2 NM not later than the last accepted
sample's, 3 NM later than the nut. -/
def State.postCode (s : State) (r : SlotId) (nm : Nut) (w9 : Word) : Nat :=
  if bitOf w9 17 then (if s.rBit (Reg.brgRsCfg r) 5 then 0 else 1)
  else if s.rsSrc r ≠ 4 then 1
  else if (s.slots.get r).got && decide (nm.toNat ≤ (s.reg80 (Reg.brgRsLastnm r)).toNat) then 2
  else if s.nut.toNat < nm.toNat then 3
  else 0

/-- Whether a sample post changes the route (R180): ROUTE, or an MPD farther from M than BRG_RS_ROUTE ps. -/
def State.routeMoved (s : State) (r : SlotId) (mpd : Nat) (w9 : Word) : Bool :=
  bitOf w9 18 ||
    match medianMpd (s.slots.get r).mpds with
    | some m => bitOf w9 19 && decide ((s.reg (Reg.brgRsRoute r)).toNat * 65536 < ((mpd : Int) - m).natAbs * 1000)
    | none => false

/-- A sample post: the route check (R180), then the sample (R162, R170); M is shown in BRG_RS_MPD. -/
def State.postSample (s : State) (r : SlotId) (nm : Nut) (d : W60) (mpd : Nat) (w9 : Word) : State :=
  let m := if bitOf w9 19 then some mpd else none
  let v := d.toInt - (s.reg60 (Reg.brgRsDelay r)).toInt
  let s1 := if s.routeMoved r mpd w9 then (s.routeChange r m).phaseSample r nm v none else s.phaseSample r nm v m
  s1.setRegN (Reg.brgRsMpd r) 2 ((medianMpd (s1.slots.get r).mpds).getD 0)

/-- A post to slot r (R164, R165): its code and the state after it, selection included. -/
def State.post (s : State) (r : SlotId) (nm : Nut) (d : W60) (mpd : Nat) (w9 : Word) : Nat × State :=
  let c := s.postCode r nm w9
  if c ≠ 0 then (c, s.postErr r)
  else
    let q := bitOf w9 16 && s.rBit (Reg.brgRsCfg r) 5
    let s1 := if q then s.setQl r (fld w9 12 4) else s
    let rank := q && fld w9 12 4 != s.rFld (Reg.brgRsCfg r) 6 4
    let s2 := if bitOf w9 17 then s1 else s1.postSample r nm d mpd w9
    (0, s2.wantSelect rank)

/-! ### Vote ticks (R163, R169, R178, R179) -/

/-- y_n of slot r on this vote tick (R163): none while its samples span less than 4 s. -/
def State.slotFreq (s : State) (r : SlotId) : Option Int :=
  let x := s.slots.get r
  let w : Nat := s.rFld Reg.brgVoteWin 0 10 * 65536000000000
  let from_ : Int := (s.nut.toNat : Int) - w
  let four : Int := 4 * 65536000000000
  if s.isTimeSlot r then
    let l := x.win.filter fun e => from_ ≤ e.1.toNat
    match l, l.getLast? with
    | (newest, _) :: _, some (oldest, _) =>
      if (newest.toNat : Int) - oldest.toNat < four then none
      else
        let (num, den) := slopeOf (l.map fun e => ((e.1.toNat : Int) - oldest.toNat, e.2))
        let lo := max from_ 0
        let span := (s.nut.toNat : Int) - lo
        if den = 0 || span ≤ 0 then none
        else some (roundHaz (rateIntegral s.bridge.rates lo s.nut.toNat * den - num * rateDen * span) (span * den))
    | _, _ => none
  else
    let l := x.gates.filter fun e => from_ ≤ e.2.1.toNat
    match l with
    | [] => none
    | _ :: _ =>
      let opn := l.foldl (fun m e => min m e.1.toNat) (2 ^ 80)
      let cls := l.foldl (fun m e => max m e.2.1.toNat) 0
      if (cls : Int) - opn < four then none
      else some (roundHaz (l.foldl (fun a e => a + e.2.2) 0) (l.length : Nat))

/-- |y + m̂| against a limit in rate units: whether it is exceeded (R169). -/
def modelFar (m : Frac) (y : Int) (lim : Nat) : Bool := decide (lim * m.den < (y * m.den + m.num).natAbs)

/-- y_n and the FREQ fault of slot r on this vote tick (R163, R169). -/
def State.voteFreq (s : State) (r : SlotId) : State :=
  if s.rsState r = RS.disabled then s
  else
    match s.slotFreq r with
    | none => s.setBit (Reg.brgRsStat r) 2 false
    | some y =>
      let y40 := satSigned 40 y
      ((s.setRegN (Reg.brgRsFreq r) 2 y40.toNat).setBit (Reg.brgRsStat r) 2 true).setFault r RF.freq
        (modelFar s.mHat y40.toInt ((s.reg (Reg.brgRsFlim r)).toNat * 10000))

/-- A qualified slot: WTR, AVAILABLE or SELECTED with y_n valid (R178). -/
def State.qualified (s : State) (r : SlotId) : Bool :=
  (s.rsState r == RS.wtr || s.rsState r == RS.available || s.rsState r == RS.selected) && s.yValid r

/-- Two slots' y_n differ by more than a limit. -/
def State.apart (s : State) (a b : SlotId) (lim : Nat) : Bool := decide (lim < (s.yN a - s.yN b).natAbs)

/-- BRG_VOTE_ALARM and BRG_VOTE_DISQ. -/
def State.voteAlarm (s : State) : Nat := (s.reg Reg.brgVoteAlarm).toNat
def State.voteDisq (s : State) : Nat := (s.reg Reg.brgVoteDisq).toNat

/-- A slot is upheld among voters, itself one of them: it and those it agrees with are a strict majority (R178). -/
def State.upheld (s : State) (vs : List SlotId) (r : SlotId) : Bool :=
  decide (vs.length < 2 * (vs.filter fun o => o == r || !s.apart r o s.voteAlarm).length)

/-- The first pair of qualified slots of equal rank that disagree (R178). -/
def State.disagreeing (s : State) (q : List SlotId) : Option (SlotId × SlotId) :=
  (q.flatMap fun a => q.map fun b => (a, b)).find? fun e =>
    decide (e.1.val < e.2.val) && s.rsRank e.1 == s.rsRank e.2 && s.apart e.1 e.2 s.voteAlarm

/-- What a held vote marks: the slots that get OUTVOTED, those that get SUSPECT, and whether it disagrees unmarked. -/
def State.voteMarks (s : State) (q : List SlotId) (pair : SlotId × SlotId) : List SlotId × List SlotId × Bool :=
  if q.length < 3 then
    ([], if s.apart pair.1 pair.2 s.voteDisq then [pair.1, pair.2] else [], true)
  else
    let ups := q.filter (s.upheld q)
    let outs := q.filter fun r => !ups.contains r
    if ups.isEmpty then ([], [], true)
    else (outs, outs.filter fun r => ups.all fun u => s.apart r u s.voteDisq, false)

/-- BRG_VOTE_STAT of a disagreeing pair (R179, R182). -/
def State.voteStat (s : State) (a b : SlotId) : Word :=
  let m := s.mHat
  let far := fun (r : SlotId) => (s.yN r * m.den + m.num).natAbs
  let near := if far a ≤ far b then a else b
  BitVec.ofNat 20 (a.val * 65536 + b.val * 4096 + near.val * 256 + s.modelValid.toNat * 128)

/-- OUTVOTED and SUSPECT judged for clearing (R179); `marked` holds the slots this tick's vote marked. -/
def State.voteClear (s : State) (q marked : List SlotId) (r : SlotId) : State :=
  if marked.contains r then s.slot r fun x => { x with susp := none }
  else
    let s1 := if s.rBit (Reg.brgRsStat r) RF.outvoted && s.yValid r && s.upheld (if q.contains r then q else q ++ [r]) r then
        s.setFault r RF.outvoted false else s
    if s1.rBit (Reg.brgRsStat r) RF.suspect then
      let others := (List.finRange 16).filter fun (o : SlotId) =>
        o != r && s.yValid o && (s.rBit (Reg.brgRsStat o) RF.suspect || q.contains o)
      if s.yValid r && others.all fun o => !s.apart r o s.voteAlarm then
        let since := ((s1.slots.get r).susp).getD s1.nut
        if reached s1.nut (since + secNut (s1.rFld Reg.brgQualTime 0 10)) then
          (s1.setFault r RF.suspect false).slot r fun x => { x with susp := none }
        else s1.slot r fun x => { x with susp := some since }
      else s1.slot r fun x => { x with susp := none }
    else s1

/-- The votes of a vote tick (R178, R179). -/
def State.vote (s : State) : State :=
  let q := (List.finRange 16).filter s.qualified
  let was := s.rBit Reg.brgSelStat 16
  let (outs, sus, dis, s1) :=
    match s.disagreeing q with
    | some (a, b) =>
      let m := s.voteMarks q (a, b)
      (m.1, m.2.1, m.2.2, s.setReg Reg.brgVoteStat (s.voteStat a b))
    | none => ([], [], false, s)
  let s2 := outs.foldl (fun u r => u.setFault r RF.outvoted true) s1
  let s3 := sus.foldl (fun u r => u.setFault r RF.suspect true) s2
  let marked := outs ++ sus
  let s4 := foldFin 16 (fun r u => u.voteClear q marked r) s3
  let s5 := s4.setBit Reg.brgSelStat 16 dis
  if dis && !was then s5.orReg Reg.brgCause 0x40000 else s5

end Sys2Proof.Machine
end

