-- ==== Sys2Proof/Machine/Tunings.lean ====
section
/-! DEFINITION. The nut, the speed monitor and the tunings: their commands (R32 to R63). -/

namespace Sys2Proof.Machine

/-- NUT_START (R37, R473): on the first tick after the PLL locks the nut starts; that tick is nut value 0 (R77), and the
28 replicas are loaded. -/
def execNutStart (s : State) : Host.Outcome State Fault Refusal :=
  .next (if s.power.phase = .locked then
    { s with nutRun := true, power := { s.power with phase := .up }, replicas := Vector.replicate 28 Replica.cold }
  else s)

/-- One tick of the time island: the nut adds 163,840 while it runs (R37), and its replicas with it; no bit is yet set on the new
tick (R13). -/
def State.tick (s : State) : State := if s.nutRun then { s with nut := s.nut + tickUnits, setNow := [] } else s

/-- NUT_NOW_READ (R40): a host read of NUT_NOW0 captures the nut. -/
def execNutNowRead (s : State) : Host.Outcome State Fault Refusal :=
  .next (if s.hostReads Reg.nutNow then
    (s.setRegN Reg.nutNow 4 s.nut.toNat).latch Reg.nutNow 4 s.nut.toNat else s)

/-- SPEED_WINDOW_END (R32 to R34): the window's rate, LOW, SEQ and VALID; SPEED_LOW when LOW rises with IRQ_EN set. -/
def execSpeedWindowEnd (c : CourseId) (mips : BitVec 12) (s : State) : Host.Outcome State Fault Refusal :=
  .next (
    let cfg := s.reg (Reg.crsSpeedCfg c)
    if s.powered (1 + c.val) && reached s.nut (s.speedAt.get c + usNut (2 ^ fld cfg 16 4)) then
      let low := decide (mips.toNat < fld cfg 0 12)
      let was := s.rBit (Reg.crsSpeed c) 18
      let s1 := ((((s.setFld (Reg.crsSpeed c) 0 12 mips.toNat).incFld (Reg.crsSpeed c) 12 6).setBit
        (Reg.crsSpeed c) 18 low).setBit (Reg.crsSpeed c) 19 true)
      let s2 := if bitOf cfg 15 && low && !was then s1.orReg (Reg.crsCause c) 0x80000 else s1
      { s2 with speedAt := vset s2.speedAt c s2.nut }
    else s)

/-- SPEED_CFG_WRITE (R33): the configuration is written, and the window in progress is discarded. -/
def execSpeedCfgWrite (c : CourseId) (v : Word) (s : State) : Host.Outcome State Fault Refusal :=
  .next (s.hostWrite (Reg.crsSpeedCfg c) fun s =>
    let s1 := s.setReg (Reg.crsSpeedCfg c) (v &&& 0xF8FFF)
    { s1 with speedAt := vset s1.speedAt c s1.nut })

/-- TUN_COMMIT_FULL (R51, R52): the request for a whole new anchor. -/
def execTunCommitFull (t : TunId) (parentT0 : Bool) (s : State) : Host.Outcome State Fault Refusal :=
  .next (s.hostWrite (Reg.tunCommit t) fun s =>
    s.hostTunCommit t (if parentT0 then 0x20000 else 0))

/-- TUN_COMMIT_RATE (R51, R52). -/
def execTunCommitRate (t : TunId) (s : State) : Host.Outcome State Fault Refusal :=
  .next (s.hostWrite (Reg.tunCommit t) fun s => s.hostTunCommit t 0x40000)

/-- TUN_COMMIT_STEP (R51, R52). -/
def execTunCommitStep (t : TunId) (s : State) : Host.Outcome State Fault Refusal :=
  .next (s.hostWrite (Reg.tunCommit t) fun s => s.hostTunCommit t 0x80000)

/-- TUN_READ (R50, R58): a host read of TUN_READ0 captures the reading and its nut value on one tick; 0 where the tuning
is disabled (R56). -/
def execTunRead (t : TunId) (s : State) : Host.Outcome State Fault Refusal :=
  .next (if s.hostReads (Reg.tunRead t) then
    let v := (s.nutToTun t s.nut).toNat
    ((s.setRegN (Reg.tunRead t) 5 v).setRegN (Reg.tunReadNut t) 4 s.nut.toNat).latch (Reg.tunRead t) 5 v
  else s)

/-! ### Leap seconds (R59 to R61) -/

/-- The reading of T0 on this tick, in 2⁻²² ns. -/
def State.t0Units (s : State) : Int := ftUnits (s.reading 0 s.nut)

/-- LEAP_AT in 2⁻²² ns (R58). -/
def State.leapAt (s : State) : Int := ((s.regN (Reg.tunLeapAt 0) 3 % 2 ^ 48 : Nat) : Int) * secUnits

/-- W/2 in 2⁻²² ns. -/
def State.smearHalf (s : State) : Int := ((s.rFld (Reg.tunSmearLen 0) 0 17 / 2 : Nat) : Int) * secUnits

/-- The enabled children of T0 of a kind (R58, R59, R60). -/
def State.tunsOfKind (s : State) (k : Nat) : List TunId :=
  (List.finRange 16).filter fun t => t.val != 0 && s.tunOn t && s.isChild t && s.rFld (Reg.tunCtrl t) 17 2 == k

/-- TUN_STATUS.SMEARING (R58). -/
def State.smearing (s : State) (t : TunId) : Bool := s.rBit (Reg.tunStatus t) 13

/-- The step of −1 s (insert) or +1 s (delete) of the leap in force (R59). -/
def State.leapSign (s : State) : Int := if s.rBit (Reg.tunLeapCtrl 0) 18 then secUnits else -secUnits

/-- ARM clears and DONE sets when the last action has completed (R61). -/
def State.leapDone (s : State) : State :=
  if s.rBit (Reg.tunLeapCtrl 0) 19 && !s.leap.stepDue && !s.leap.secDue && (List.finRange 16).all (fun t => !s.smearing t)
  then
    { (s.setBit (Reg.tunLeapCtrl 0) 19 false).setBit (Reg.tunLeapCtrl 0) 17 true with leap := { Leap.cold with stepped := s.leap.stepped } }
  else s

/-- Whether an arm of the leap is refused (R61). -/
def State.leapRefused (s : State) : Bool :=
  let w := s.rFld (Reg.tunSmearLen 0) 0 17
  w % 2 == 1 || w < 200 || w > 86400 || decide (s.leapAt ≤ s.t0Units + secUnits) ||
    (!(s.tunsOfKind 2).isEmpty && decide (s.leapAt - s.smearHalf ≤ s.t0Units)) || s.rBit (Reg.tunStatus 0) 19

/-- The rc1 bits of a write to TUN_LEAP_CTRL (R58). -/
def leapClear (s : State) (v : Word) : State :=
  s.setReg (Reg.tunLeapCtrl 0) (s.reg (Reg.tunLeapCtrl 0) &&& ~~~(s.rc1Of (Reg.tunLeapCtrl 0) v &&& 0x30000))

/-- The effect of a write of ARM := 1 (R61). -/
def State.leapArm (s : State) (v : Word) : State :=
  let s1 := leapClear s v
  if s1.rBit (Reg.tunLeapCtrl 0) 19 then s1
  else
    let s2 := s1.setBit (Reg.tunLeapCtrl 0) 18 (bitOf v 18)
    if s2.leapRefused then s2.setBit (Reg.tunLeapCtrl 0) 16 true
    else { s2.setBit (Reg.tunLeapCtrl 0) 19 true with
           leap := { s2.leap with stepDue := true, secDue := false, startDue := true, endDue := true } }

/-- LEAP_ARM (R61). -/
def execLeapArm (v : Word) (s : State) : Host.Outcome State Fault Refusal :=
  .next (s.hostWrite (Reg.tunLeapCtrl 0) fun s => s.leapArm v)

/-- A FULL commit of the leap logic that restores a smeared tuning, its offset moved by `d` 2⁻²² ns (R60, R61). -/
def State.restoreSmear (s : State) (t : TunId) (d : Int) : State :=
  let u := s.tunings.get t
  (s.commit t { kind := 0, seq := false, parent := true, nut := u.preNut,
                val := ftOfUnits (ftUnits u.preOff + d), rate := u.preRate } .leap).setBit (Reg.tunStatus t) 13 false

/-- The effect of a write of ARM := 0 (R61): before LEAP_AT it cancels the leap and ends a smear at once. A cancel leaves DONE as it
is, and whether T0 is before LEAP_AT is judged by its reading now (DESIGN CHOICE, notes/assumptions/89.md). -/
def State.leapCancel (s : State) (v : Word) : State :=
  let s1 := leapClear s v
  if s1.rBit (Reg.tunLeapCtrl 0) 19 then
    if s1.t0Units < s1.leapAt then
      let s2 := ((List.finRange 16).filter s1.smearing).foldl (fun u t => u.restoreSmear t 0) s1
      { s2.setBit (Reg.tunLeapCtrl 0) 19 false with leap := { Leap.cold with stepped := s.leap.stepped } }
    else s1
  else s1.setBit (Reg.tunLeapCtrl 0) 18 (bitOf v 18)

/-- LEAP_CANCEL (R61). -/
def execLeapCancel (v : Word) (s : State) : Host.Outcome State Fault Refusal :=
  .next (s.hostWrite (Reg.tunLeapCtrl 0) fun s => s.leapCancel v)

/-- LEAP_STEP (R59): once T0 reads LEAP_AT, every enabled UTC-kind tuning is stepped; LEAP_SEC rises for an insertion. -/
def execLeapStep (s : State) : Host.Outcome State Fault Refusal :=
  .next (
    if s.rBit (Reg.tunLeapCtrl 0) 19 && s.leap.stepDue && decide (s.leapAt ≤ s.t0Units) then
      let ins := !s.rBit (Reg.tunLeapCtrl 0) 18
      let stp := ftOfUnits s.leapSign
      let s1 := (s.tunsOfKind 1).foldl (fun u t =>
        (u.commit t { kind := 2, seq := false, parent := false, nut := 0, val := stp, rate := 0 } .leap).setBit
          (Reg.tunStatus t) 14 ins) s
      ({ s1 with leap := { s1.leap with stepDue := false, secDue := ins, stepped := some (s1.nut, !ins) } }).leapDone
    else s)

/-- LEAP_SEC_END (R59): once T0 reads LEAP_AT + 1, LEAP_SEC clears. -/
def execLeapSecEnd (s : State) : Host.Outcome State Fault Refusal :=
  .next (
    if s.leap.secDue && decide (s.leapAt + secUnits ≤ s.t0Units) then
      let s1 := foldFin 16 (fun t u => if u.rBit (Reg.tunStatus t) 14 then u.setBit (Reg.tunStatus t) 14 false else u) s
      ({ s1 with leap := { s1.leap with secDue := false } }).leapDone
    else s)

/-- The smear rate r_s (R60). -/
def State.smearRate (s : State) : Int :=
  let m := roundHaz rateDen (s.rFld (Reg.tunSmearLen 0) 0 17 : Nat)
  if s.rBit (Reg.tunLeapCtrl 0) 18 then m else -m

/-- The start of a smear on tuning t (R60): the pre-smear values are kept and the RATE commit made; a rate outside 40
bits discards it (R54). Which of SMEARING and the end's FULL follow a discarded RATE is a DESIGN CHOICE (notes/assumptions/158.md). -/
def State.smearOn (s : State) (t : TunId) : State :=
  let r := s.reg40 (Reg.tunAncRate t)
  let u := { s.tunings.get t with
    preOff := s.reg100 (Reg.tunAncVal t), preRate := r, preNut := s.reg80 (Reg.tunAncNut t) }
  let s1 := { s with tunings := vset s.tunings t u }
  if !fitsSigned 40 (r.toInt + s.smearRate) then s1.setBit (Reg.tunStatus t) 15 true
  else
    let c : Commit :=
      { kind := 1, seq := false, parent := false, nut := 0, val := 0, rate := BitVec.ofInt 40 (r.toInt + s.smearRate) }
    (s1.commit t c .leap).setBit (Reg.tunStatus t) 13 true

/-- SMEAR_START (R60): once T0 reads LEAP_AT − W/2. -/
def execSmearStart (s : State) : Host.Outcome State Fault Refusal :=
  .next (
    if s.rBit (Reg.tunLeapCtrl 0) 19 && s.leap.startDue && decide (s.leapAt - s.smearHalf ≤ s.t0Units) then
      let s1 := (s.tunsOfKind 2).foldl (fun u t => u.smearOn t) s
      { s1 with leap := { s1.leap with startDue := false } }
    else s)

/-- SMEAR_END (R60): once T0 reads LEAP_AT + W/2, a FULL commit restores every smeared tuning, moved by 1 s. -/
def execSmearEnd (s : State) : Host.Outcome State Fault Refusal :=
  .next (
    if s.rBit (Reg.tunLeapCtrl 0) 19 && s.leap.endDue && !s.leap.startDue &&
        decide (s.leapAt + s.smearHalf ≤ s.t0Units) then
      let d := s.leapSign
      let s1 := ((List.finRange 16).filter s.smearing).foldl (fun u t => u.restoreSmear t d) s
      ({ s1 with leap := { s1.leap with endDue := false } }).leapDone
    else s)

/-! ### Commit ticks (R52, R53) -/

/-- A commit of the leap logic to tuning t is due on this tick (R59, R60). -/
def State.leapCommitDue (s : State) (t : TunId) : Bool :=
  s.rBit (Reg.tunLeapCtrl 0) 19 &&
    ((s.leap.stepDue && decide (s.leapAt ≤ s.t0Units) && (s.tunsOfKind 1).contains t) ||
     (s.leap.startDue && decide (s.leapAt - s.smearHalf ≤ s.t0Units) && (s.tunsOfKind 2).contains t) ||
     (s.leap.endDue && !s.leap.startDue && decide (s.leapAt + s.smearHalf ≤ s.t0Units) && s.smearing t))

/-- The bridge's update of this tick is still to come (R25, R185). -/
def State.bridgeDue (s : State) : Bool := s.onMultiple 65536000000 && s.bridge.updAt != some s.nut

/-- A host's or a program's commit to tuning t is deferred to the next tick (R53): one has taken this tick, or the leap logic or the
bridge is to take it. -/
def State.tickTaken (s : State) (t : TunId) : Bool :=
  (s.tunings.get t).took == some s.nut || s.leapCommitDue t || (t == 0 && s.bridgeDue)

/-- COMMIT_TICK (R52, R53): on one tick each tuning takes at most one crossed or deferred commit, T0 first. -/
def execCommitTick (s : State) : Host.Outcome State Fault Refusal :=
  .next (foldFin 16 (fun t u => if u.tickTaken t then u else u.commitTun t) s)

end Sys2Proof.Machine
end

