-- ==== Sys2Proof/Machine/OutOps.lean ====
section
/-! DEFINITION. Operations of the outputs: the squelch (R203, R204), the second an on-time point begins (R209 to R211), IRIG-B
elements (R209, R210) and time-of-day records (R211 to R213). -/

namespace Sys2Proof.Machine

/-- A squelch by mode, with FORCE and SQL_MODE as given (R203, R453). -/
def State.modeSquelch (s : State) (force : Bool) (mode : Nat) : Bool :=
  let c := s.rFld Reg.brgHoStat 18 2
  force || (mode == 1 && (c == 0 || c == 3)) || (mode == 2 && c != 1) || s.rBit Reg.irqFault 15

/-- FOUTf is to be gated (R203, R206, R453). -/
def State.foutShut (s : State) (f : FoutId) : Bool :=
  let w := s.reg (Reg.brgFoutCtrl f)
  !bitOf w 19 || !bitOf w 15 || s.modeSquelch (bitOf w 18) (fld w 16 2)

/-- The period of FOUTf in 2⁻⁴⁸ of a reference cycle: DIV × 2⁴⁸, of which M' pass in a tick (R205). -/
def State.foutPeriod (s : State) (f : FoutId) : Nat := max 1 (s.regN (Reg.brgFoutDiv f) 2 % 2 ^ 40) * 2 ^ 48

/-- FOUTf over one tick (R204): its clock, of equal halves (DESIGN CHOICE, notes/assumptions/161.md), rises where a period begins; it
is gated at a falling edge and released at a rising one. Without lock it stands, gated. -/
def State.foutTick (s : State) (f : FoutId) : FoutClk :=
  let c := s.foutClk.get f
  let w := s.reg (Reg.brgFoutCtrl f)
  if !bitOf w 19 || !bitOf w 15 then { c with gated := true }
  else
    let p := s.foutPeriod f
    let m := (s.synths.get ⟨f.val, by omega⟩).mp
    let rise := decide (p ≤ c.acc + m)
    let fall := decide ((c.acc + p / 2) / p < (c.acc + p / 2 + m) / p)
    { acc := (c.acc + m) % p, gated := if s.foutShut f then c.gated || fall else c.gated && !rise }

/-- OUTo is squelched (R156, R200, R201, R203). -/
def State.squelched (s : State) (o : OutId) : Bool :=
  let w := s.reg (Reg.brgOutSql o)
  (s.edges.get o).step || (s.edges.get o).unseq.isSome || s.modeSquelch (bitOf w 19) (fld w 17 2)

/-- PLK_EDGE_STAT.SQUELCHED: the bridge holds the pad inactive (R156, R204). A pulse or a frame in progress is not cut, and a
suppressed pulse stays so through its trailing edge. -/
def State.padSquelched (s : State) (o : OutId) : Bool :=
  match (s.edges.get o).pulse with
  | some p => p.sup
  | none => s.squelched o && (s.irig.get o).isNone

/-- The second of a reading nearest to a nut value, on tuning t's scale. -/
def State.secNear (s : State) (t : TunId) (x : Nut) : Int := (ftUnits (s.reading t x) + secUnits / 2) / secUnits

/-- The second that begins at an on-time point, and whether it is an inserted one (R59, R209, R210): the leap's step, if the
point is the one that takes it, is looked ahead at; at a point before the last step it is undone. -/
def State.secondAt (s : State) (t : TunId) (x : Nut) : Int × Bool :=
  let before := match s.leap.stepped with
    | some (n, _) => (s.tunsOfKind 1).contains t && decide ((x - n).toInt < -32768000000000)
    | none => false
  let undo : Int := match s.leap.stepped with
    | some (_, del) => if before then (if del then -1 else 1) else 0
    | none => 0
  let sec := s.secNear t x + undo
  let t0 := s.secNear 0 x
  let at_ := s.leapAt / secUnits
  if before then (sec, false)
  else if s.rBit (Reg.tunStatus t) 14 then (sec, decide (t0 < at_ + 1))
  else if s.rBit (Reg.tunLeapCtrl 0) 19 && s.leap.stepDue && (s.tunsOfKind 1).contains t && decide (at_ ≤ t0) then
    if s.rBit (Reg.tunLeapCtrl 0) 18 then (sec + 1, false) else (sec - 1, true)
  else (sec, false)

/-! ### The calendar -/

/-- The date of a count of days from 1970-01-01: year, month, day, day of year from 1. -/
def civil (days : Nat) : Nat × Nat × Nat × Nat :=
  let z := days + 719468
  let doe := z % 146097
  let yoe := (doe - doe / 1460 + doe / 36524 - doe / 146096) / 365
  let doy := doe - (365 * yoe + yoe / 4 - yoe / 100)
  let mp := (5 * doy + 2) / 153
  let d := doy - (153 * mp + 2) / 5 + 1
  let m := if mp < 10 then mp + 3 else mp - 9
  let y := yoe + z / 146097 * 400 + (if m ≤ 2 then 1 else 0)
  (y, m, d, days + 719162 - (365 * (y - 1) + (y - 1) / 4 - (y - 1) / 100 + (y - 1) / 400) + 1)

/-! ### IRIG-B (R209, R210) -/

/-- The `n` bits of a number as elements, lowest first. -/
def irigBits (n v : Nat) : List Nat := (bitsOf n v).map Bool.toNat

/-- The 27 control-function bits, the BCD year in the first nine elements where the code has it (R209, R210; the places are
those of IRIG 200, PRESUMED, notes/assumptions/42.md). -/
def irigCfEls (cf : Option (BitVec 27)) (year : Option Nat) : List Nat × List Nat × List Nat :=
  let c := (cf.getD 0).toNat
  let first := match year with
    | some y => irigBits 4 (y % 10) ++ [0] ++ irigBits 4 (y / 10 % 10)
    | none => irigBits 9 c
  (first, irigBits 9 (c >>> 9), irigBits 9 (c >>> 18))

/-- The 100 elements of the frame of a second: 0, 1, or 2 for a marker (R209, R210). -/
def irigFrame (code : Nat) (sec : Nat) (leap : Bool) (cf : BitVec 27) : List Nat :=
  let (y, _, _, doy) := civil (sec / 86400)
  let sod := sec % 86400
  let ss := if leap then 60 else sod % 60
  let mm := sod / 60 % 60
  let hh := sod / 3600
  let sbs := if leap then 86400 else sod
  let hasCf := code == 0 || code == 1 || code == 4 || code == 5
  let hasSbs := code == 0 || code == 3 || code == 4 || code == 7
  let (c1, c2, c3) := irigCfEls (if hasCf then some cf else none) (if 4 ≤ code then some y else none)
  let sb := if hasSbs then sbs else 0
  [2] ++ irigBits 4 (ss % 10) ++ [0] ++ irigBits 3 (ss / 10) ++ [2] ++
    irigBits 4 (mm % 10) ++ [0] ++ irigBits 3 (mm / 10) ++ [0, 2] ++
    irigBits 4 (hh % 10) ++ [0] ++ irigBits 2 (hh / 10) ++ [0, 0, 2] ++
    irigBits 4 (doy % 10) ++ [0] ++ irigBits 4 (doy / 10 % 10) ++ [2] ++
    irigBits 2 (doy / 100) ++ [0, 0, 0, 0, 0, 0, 0, 2] ++
    c1 ++ [2] ++ c2 ++ [2] ++ c3 ++ [2] ++ irigBits 9 sb ++ [2] ++ irigBits 8 (sb >>> 9) ++ [0, 2]

/-- The tuning of IRIG-B frames. -/
def State.irigTun (s : State) : TunId := Fin.ofNat 16 (s.rFld Reg.brgIrigCtrl 13 4)

/-- The elements of the frame whose on-time point is x (R209, R210). -/
def State.irigElements (s : State) (x : Nut) : List Nat :=
  let (sec, leap) := s.secondAt s.irigTun x
  irigFrame (s.rFld Reg.brgIrigCtrl 17 3) (sec % (2 : Int) ^ 48).toNat leap s.irigCf

/-- The ticks an element lasts (R209). -/
def irigWidth (el : Nat) : Nat := if el = 0 then 800000 else if el = 1 then 2000000 else 3200000

/-- The tick and the intended time of edge e of a frame, as nut offsets from its on-time point (R209). -/
def irigOffset (el : List Nat) (e : Nat) : Nut :=
  BitVec.ofNat 80 ((e / 2 * 4000000 + (if e % 2 = 1 then irigWidth (el.getD (e / 2) 0) else 0)) * 163840)

/-! ### Time-of-day records (R211 to R213) -/

/-- The bit rates of BAUD (R211). -/
def baudRate (b : Nat) : Nat :=
  match b with
  | 0 => 4800 | 1 => 9600 | 2 => 19200 | 3 => 38400 | 4 => 57600 | 5 => 115200 | 6 => 460800 | _ => 921600

/-- The ASCII digits of a number, most significant first. -/
def digits : Nat → Nat → List Byte
  | 0, _ => []
  | k + 1, v => digits k (v / 10) ++ [BitVec.ofNat 8 (48 + v % 10)]

/-- An upper-case hexadecimal digit. -/
def hexDigit (v : Nat) : Byte := BitVec.ofNat 8 (if v % 16 < 10 then 48 + v % 16 else 55 + v % 16)

/-- An NMEA-0183 ZDA sentence (R212). -/
def zdaRecord (gn : Bool) (sec : Nat) (leap : Bool) : List Byte :=
  let (y, m, d, _) := civil (sec / 86400)
  let sod := sec % 86400
  let ss := if leap then 60 else sod % 60
  let comma : Byte := 44
  let body : List Byte :=
    [71, if gn then 78 else 80, 90, 68, 65, comma] ++ digits 2 (sod / 3600) ++ digits 2 (sod / 60 % 60) ++ digits 2 ss ++
      [46, 48, 48, comma] ++ digits 2 d ++ [comma] ++ digits 2 m ++ [comma] ++ digits 4 y ++
      [comma, 48, 48, comma, 48, 48]
  let x := body.foldl (fun a b => a ^^^ b) (0 : Byte)
  [36] ++ body ++ [42, hexDigit (x.toNat / 16), hexDigit x.toNat, 13, 10]

/-- CRC-16 with polynomial 0x1021 over bytes, most significant bit first (R213). -/
def crc16 (bs : List Byte) : BitVec 16 :=
  bs.foldl (fun c b =>
    (List.range 8).foldl (fun (r : BitVec 16) _ =>
      if r.msb then (r <<< 1) ^^^ 0x1021 else r <<< 1) (c ^^^ (BitVec.ofNat 16 b.toNat <<< 8))) 0xFFFF

/-- The bytes of a number, most significant first. -/
def todBytes (k v : Nat) : List Byte := (List.range k).map fun i => BitVec.ofNat 8 (v >>> (8 * (k - 1 - i)))

/-- LEAP_SEC of the first UTC-kind tuning (R213). -/
def State.firstLeapSec (s : State) : Bool :=
  match (List.finRange 16).find? fun (t : TunId) => t.val != 0 && s.rFld (Reg.tunCtrl t) 17 2 == 1 with
  | some t => s.rBit (Reg.tunStatus t) 14
  | none => false

/-- A Ronnak TOD record of a T0 second (R213). -/
def State.todRecord (s : State) (u : Fin 2) (sec : Nat) : List Byte :=
  let flags := (s.rBit (Reg.tunLeapCtrl 0) 19).toNat * 128 + (s.rBit (Reg.tunLeapCtrl 0) 18).toNat * 64 +
    s.firstLeapSec.toNat * 32 + (s.tods.get u).step.toNat * 16
  let body := [0xA5, 0x5A, 1] ++ todBytes 6 sec ++ todBytes 2 (s.rFld (Reg.brgTodUtcoff u) 0 16) ++
    [BitVec.ofNat 8 flags, BitVec.ofNat 8 (s.rFld Reg.brgHoStat 18 2), BitVec.ofNat 8 (s.rFld Reg.brgHoStat 0 8)]
  body ++ todBytes 2 (crc16 body).toNat

/-- The tuning of a UART's records: T0 with FMT = 1 (R211, R213). -/
def State.todTun (s : State) (u : Fin 2) : TunId :=
  if s.rBit (Reg.brgTodCtrl u) 18 then 0 else Fin.ofNat 16 (s.rFld (Reg.brgTodCtrl u) 13 4)

/-- The on-time point of the second that holds a nut value on tuning t's scale. -/
def State.onTime (s : State) (t : TunId) (x : Nut) : Nut :=
  nutOfReading (s.anchor t) (ftOfUnits (ftUnits (s.reading t x) / secUnits * secUnits))

/-- Two nut values name one on-time point: they lie less than half a second apart. -/
def sameSecond (a b : Nut) : Bool := decide ((a - b).toInt.natAbs < 32768000000000)

/-- The leading edge of the second with on-time point x on an output was squelched or missed (R211): it is one of the edges lost, or the target in
force, which a cleared EN or a hold keeps from firing, has passed. -/
def State.edgeLost (s : State) (o : OutId) (x : Nut) : Bool :=
  ((s.edges.get o).lostX.any fun y => decide ((y - x).toInt.natAbs ≤ 163840)) ||
  (s.rBit (Reg.plkEdgeStat o) 19 && s.edgeLate o && decide ((s.reg80 (Reg.plkEdgeNtgt o) - x).toInt ≤ 163840))

end Sys2Proof.Machine
end

