-- ==== Sys2Proof/Machine/Bridge.lean ====
section
/-! DEFINITION. The bridge's commands: slot timers, votes, selection, the loop's update tick, holdover, the step sequence and
the frequency outputs (R161 to R206). -/

namespace Sys2Proof.Machine

/-- No sample of slot r has been accepted for BRG_RS_TMO ms (R169). -/
def State.sampleLate (s : State) (r : SlotId) : Bool :=
  reached s.nut ((s.slots.get r).fedAt + msNut (s.reg (Reg.brgRsTmo r)).toNat)

/-- NO_SAMPLE is 1 while its condition holds (R169). -/
def State.judgeSample (s : State) (r : SlotId) : State :=
  if s.rsState r = RS.disabled || s.rBit (Reg.brgRsStat r) RF.noSample == s.sampleLate r then s
  else ((s.setFault r RF.noSample (s.sampleLate r)).rsUpdate r).wantSelect false

/-- SAMPLE_TIMEOUT (R169): no sample accepted for BRG_RS_TMO ms raises NO_SAMPLE. -/
def execSampleTimeout (r : SlotId) (s : State) : Host.Outcome State Fault Refusal :=
  .next (if s.sampleLate r then s.judgeSample r else s)

/-- HOLDOFF_EXPIRY (R171, R172, R175): hold-off ends with a fault present; it takes effect at the end of the tick. -/
def execHoldoffExpiry (r : SlotId) (s : State) : Host.Outcome State Fault Refusal :=
  .next (if s.holdoffOver r then s.timerDue r else s)

/-- QUAL_EXPIRY (R171, R172): BRG_QUAL_TIME s with no fault; it takes effect at the end of the tick. -/
def execQualExpiry (r : SlotId) (s : State) : Host.Outcome State Fault Refusal :=
  .next (if s.qualOver r then s.timerDue r else s)

/-- WTR_EXPIRY (R171, R172): BRG_WTR s with no fault; it takes effect at the end of the tick. -/
def execWtrExpiry (r : SlotId) (s : State) : Host.Outcome State Fault Refusal :=
  .next (if s.wtrOver r then s.timerDue r else s)

/-- VOTE_TICK (R163, R169, R172, R174, R178, R179): y_n and FREQ of every slot, the votes, every slot's state, then
selection at the end of the tick. -/
def execVoteTick (s : State) : Host.Outcome State Fault Refusal :=
  .next (
    if s.onMultiple 65536000000000 then
      let s1 := foldFin 16 (fun r u => u.voteFreq r) s
      let s2 := s1.vote
      (foldFin 16 (fun r u => u.rsUpdate r) s2).wantSelect false
    else s)

/-- The mean of a cross-check (R181): the mean of the slot's d less the mean of the GNSS slot's; a free value where either
gave no sample. -/
def State.crossMean (s : State) (r : SlotId) : Int × State :=
  let x := s.slots.get r
  if x.xN = 0 ∨ x.gN = 0 then ((s.free 60).1.toInt, (s.free 60).2)
  else (roundHaz (x.xSum * x.gN - x.gSum * x.xN) (x.xN * x.gN : Nat), s)

/-- XCHK_END (R181): after BRG_QUAL_TIME s the mean is written and judged, and ROUTE_CHANGED clears. -/
def execXchkEnd (r : SlotId) (s : State) : Host.Outcome State Fault Refusal :=
  .next (
    match (s.slots.get r).route with
    | some t =>
      if reached s.nut (t + secNut (s.rFld Reg.brgQualTime 0 10)) then
        let s1 :=
          if (s.slots.get r).xref.isSome then
            let (m, u) := s.crossMean r
            let pass := decide (m.natAbs ≤ (u.reg (Reg.brgRsXlim r)).toNat * 65536)
            ((u.setRegN (Reg.brgRsXchk r) 3 (satSigned 60 m).toNat).setFld (Reg.brgRsStat r) 4 2 (if pass then 2 else 3)).setFault
              r RF.asym (u.rBit (Reg.brgRsStat r) RF.asym || !pass)
          else s.setFld (Reg.brgRsStat r) 4 2 0
        (((s1.slot r fun x => { x with route := none, xref := none }).setFault r RF.route false).rsUpdate r).wantSelect false
      else s
    | none => s)

/-- A refused bridge write (R161, R182, R214). -/
def State.brgRefuse (s : State) : State := s.setBit Reg.brgSelCtrl 16 true

/-- A slot whose SRC is written to another value (R161, R171): its faults and estimates are cleared. -/
def State.rsRenew (s : State) (r : SlotId) (src : Nat) : State :=
  let s1 := { s with slots := vset s.slots r { Slot.cold with cfgAt := s.nut, fedAt := s.nut } }
  let s2 := s1.setReg (Reg.brgRsStat r) (s1.reg (Reg.brgRsStat r) &&& 0xE0040)
  let s3 := ((s2.setRegN (Reg.brgRsFreq r) 2 0).setRegN (Reg.brgRsMpd r) 2 0).setRegN (Reg.brgRsXchk r) 3 0
  let s4 := s3.setRs r (if src = 0 then RS.disabled else RS.qualifying)
  s4.slot r fun x => { x with timer := if src = 0 then none else some s.nut }

/-- A word written to BRG_RS_CFG (R161, R171, R174): reserved sources refuse it. -/
def State.rsCfg (s : State) (r : SlotId) (v : Word) : State :=
  if 5 ≤ fld v 17 3 then s.brgRefuse
  else
    let old := s.reg (Reg.brgRsCfg r)
    let s1 := s.setReg (Reg.brgRsCfg r) (v &&& 0xFFFF0)
    let s2 :=
      if fld v 17 3 ≠ fld old 17 3 then s1.rsRenew r (fld v 17 3)
      else if fld v 14 3 ≠ fld old 14 3 then s1.slot r fun x => { x with cfgAt := s.nut }
      else s1
    let s3 :=
      if fld v 17 3 = 0 then s2
      else ((s2.setFault r RF.dnu (fld v 6 4 == 15)).setFault r RF.los (s2.rsInputLos r)).rsUpdate r
    s3.wantSelect (fld v 6 8 != fld old 6 8)

/-- RS_CFG_WRITE (R161, R171). -/
def execRsCfgWrite (r : SlotId) (v : Word) (s : State) : Host.Outcome State Fault Refusal :=
  .next (s.hostWrite (Reg.brgRsCfg r) fun s => s.rsCfg r v)

/-- BRG_RS_CMD.CLEAR: ASYM clears (R181). -/
def State.rsClear (s : State) (r : SlotId) : State := ((s.setFault r RF.asym false).rsUpdate r).wantSelect false

/-- RS_CLEAR (R181). -/
def execRsClear (r : SlotId) (s : State) : Host.Outcome State Fault Refusal :=
  .next (s.hostWrite (Reg.brgRsCmd r) fun s => s.rsClear r)

/-- A word written to BRG_SEL_CTRL (R174): MODE 3 refuses it; CFG_ERR is rc1. -/
def State.selCtrl (s : State) (v : Word) : State :=
  if fld v 18 2 = 3 then s.brgRefuse
  else
    let err := s.rBit Reg.brgSelCtrl 16 && !bitOf (s.rc1Of Reg.brgSelCtrl v) 16
    (s.setReg Reg.brgSelCtrl (putBit (v &&& 0xEF000) 16 err)).wantSelect false

/-- SEL_CTRL_WRITE (R174). -/
def execSelCtrlWrite (v : Word) (s : State) : Host.Outcome State Fault Refusal :=
  .next (s.hostWrite Reg.brgSelCtrl fun s => s.selCtrl v)

/-! ### The update tick (R185 to R196, R205) -/

/-- The state whose r_f holds: SWITCHING from FREERUN or HOLDOVER steers as the state it came from (R188). -/
def State.steerState (s : State) : Nat :=
  if s.selState = BS.switching then
    if s.bridge.origin = BS.freerun ∨ s.bridge.origin = BS.holdover then s.bridge.origin else BS.holdoff
  else s.selState

/-- A float60 in rate units as the nearest 2⁻¹⁶ rate units. -/
def rateFine (w : W60) : Int := f60Near (f60Mul w (f60Int 65536))

/-- r_f before its limit (R188, R190, R191, R196). -/
def State.rFine (s : State) : Int :=
  match s.steerState with
  | 0 => (s.reg40 Reg.brgFreeRate).toInt * 65536
  | 1 => if s.isTimeSlot s.selSlot then rateFine (f60Add s.bridge.integ s.bridge.qc) else rateFine s.bridge.integ
  | 4 =>
    let q := driftRate s.bridge.hoR s.bridge.hoA s.bridge.hoTc s.nut
    roundHaz (q.num * 65536) q.den
  | _ => rateFine s.bridge.integ

/-- The once-per-update-tick line of R190 in TRACKING a time slot: R and Qc follow Φ, and Φ moves. -/
def State.movePhi (s : State) : State :=
  if s.selState == BS.tracking && s.isTimeSlot s.selSlot && !s.bridge.fonly then
    let s1 := s.setQc
    let old := s.bridge.phi
    let step := f60Mul (f60Mul (f60Sub s1.bridge.qc s1.bridge.p) (f60OfRat 1 100000000000000)) (f60OfRat 1 1000)
    let new := f60Add old step
    let new1 := if f60Sign old * f60Sign new < 0 then f60Zero false else new
    let s2 := s1.setPhi new1
    if f60Sign old != 0 && f60Sign new1 == 0 && s2.bridge.hoKeep then
      (s2.brg fun b => { b with hoKeep := false }).ladder
    else s2
  else s

/-- The limit of r_f: 5 × 10⁻⁴ in 2⁻¹⁶ rate units (R186). -/
def rfLimit : Int := 50000000000 * 65536

/-- M' of a synthesiser for r: rounded with the residue carried (R205). -/
def Synth.steer (x : Synth) (m : Nat) (r : Int) : Synth :=
  let w := x.res + (m : Int) * (rateDen + r)
  let q := roundHaz w rateDen
  { mp := q.toNat, res := w - q * rateDen }

/-- M of synthesiser k: BRG_FOUT_M, or 12.5 for SyncE (R205, R208). -/
def State.synthM (s : State) (k : Fin 5) : Nat :=
  if k.val < 4 then s.regN (Reg.brgFoutM k.val) 3 % 2 ^ 54 else 25 * 2 ^ 47

/-- The value r of an update tick applied to the synthesisers and to T0's rate together (R25, R185, R205): where R54 discards T0's
commit, neither takes it, and r and the residue stay (DEDUCED, notes/assumptions/160.md). -/
def State.applySteer (s : State) (w : Int) : State :=
  let r := roundHaz w 65536
  let c : Commit := { kind := 1, seq := false, parent := false, nut := 0, val := 0, rate := BitVec.ofInt 40 r }
  let cur := s.reg40 (Reg.tunAncRate 0)
  let bad := c.rate != cur && commitBad s 0 c
  let q := if bad then cur.toInt else r
  let s1 := (s.brg fun b => { b with res := if bad then b.res else w - r * 65536 }).setRegN Reg.brgSteer 2 (BitVec.ofInt 40 q).toNat
  let s2 := { s1 with synths := Vector.ofFn fun k => (s1.synths.get k).steer (s1.synthM k) q }
  if c.rate = cur then s2 else s2.commit 0 c .bridge

/-- DPLL_UPDATE (R185, R186, R188, R190, R196, R205): the update tick. -/
def execDpllUpdate (s : State) : Host.Outcome State Fault Refusal :=
  .next (
    if s.bridgeDue then
      let s1 := (s.brg fun b => { b with updAt := some s.nut }).brg fun b =>
        if s.selState = BS.tracking then { b with accI := b.accI + rateFine b.integ, accN := b.accN + 1 }
        else { b with accBad := true }
      let s2 := s1.movePhi
      let x := s2.rFine
      let rf := max (-rfLimit) (min rfLimit x)
      let atLim := rf == rfLimit || rf == -rfLimit
      let was := s2.rBit Reg.brgLoopStat 15
      let s3 := s2.setBit Reg.brgLoopStat 15 atLim
      let s4 := if atLim && !was then s3.orReg Reg.brgLcause 0x20000 else s3
      (s4.brg fun b => { b with rf := rf }).applySteer (s4.bridge.res + rf)
    else s)

/-- BRIDGE_SECOND_TICK (R194, R195, R197, R198): a second spent wholly in TRACKING is stored; h, E(h), the model and the
status are shown. -/
def execBridgeSecondTick (s : State) : Host.Outcome State Fault Refusal :=
  .next (
    if s.onMultiple 65536000000000 then
      let b := s.bridge
      let ok := !b.accBad && b.accN == 1000
      let s1 := s.brg fun b =>
        { b with secs := if ok then ((s.nut - secNut 1, b.accI) :: b.secs).take 604800 else b.secs,
                 accI := 0, accN := 0, accBad := s.selState != BS.tracking }
      let s2 :=
        if s1.inHoldover then
          (s1.setRegN Reg.brgHoElapsed 2 ((s1.nut - s1.bridge.hoAt).toNat / 65536000000000)).showTe
        else s1
      s2.showModel.ladder
    else s)

/-! ### Leaving FREERUN or HOLDOVER (R199, R200) -/

/-- A word written to BRG_STEP_CMD (R199): GO starts a step sequence of −d of the latest sample; NOSTEP starts slewing
from it. Neither has an effect while STEP_REQ is 0. -/
def State.stepCmd (s : State) (v : Word) : State :=
  if s.rBit Reg.brgLoopStat 17 then
    if bitOf v 19 then s.startStep (-s.bridge.lastD)
    else if bitOf v 18 then
      let s1 := (s.setBit Reg.brgLoopStat 17 false).setPhi (phaseSec s.bridge.lastD)
      (s1.brg fun b => { b with fonly := false, hoKeep := b.hoKeep && f60Sign b.phi != 0 }).ladder
    else s
  else s

/-- STEP_GO (R199). -/
def execStepGo (s : State) : Host.Outcome State Fault Refusal :=
  .next (s.hostWrite Reg.brgStepCmd fun s => s.stepCmd 0x80000)

/-- STEP_NOSTEP (R199, R560). -/
def execStepNostep (s : State) : Host.Outcome State Fault Refusal :=
  .next (s.hostWrite Reg.brgStepCmd fun s => s.stepCmd 0x40000)

/-- T0's ns field reaches 500,000,000 on the tick of nut value n (R200). -/
def State.halfSecond (s : State) (n : Nut) : Bool :=
  let half := secUnits / 2
  decide ((ftUnits (s.reading 0 (n - tickUnits)) + half) / secUnits < (ftUnits (s.reading 0 n) + half) / secUnits)

/-- STEP_SQUELCH_START (R200): tick Q. Every edge output in T0 or a child of T0 is squelched. -/
def execStepSquelchStart (s : State) : Host.Outcome State Fault Refusal :=
  .next (
    match s.bridge.stepAt with
    | some t =>
      if s.bridge.stepQ.isNone && reached s.nut (t + msNut 10) && s.halfSecond s.nut then
        let s1 := s.brg fun b => { b with stepQ := some s.nut }
        foldFin 8 (fun o u =>
          let (b, k) := u.outBaseTun o
          if b && u.tunMoved 0 k then u.setEdge o { u.edges.get o with step := true } else u) s1
      else s
    | none => s)

/-- STEP_COMMIT (R200): on tick Q + 100,000,000 the step goes into T0's TUN_NEW_VAL and its commit takes the host's place. -/
def execStepCommit (s : State) : Host.Outcome State Fault Refusal :=
  .next (
    match s.bridge.stepQ with
    | some q =>
      if !s.bridge.stepped && reached s.nut (q + 16384000000000) then
        let v := (BitVec.ofNat 60 (s.regN Reg.brgStepVal 3)).toInt
        let s1 := (s.brg fun b => { b with stepped := true }).setRegN (Reg.tunNewVal 0) 5 (ftOfUnits (v * 64)).toNat
        s1.offerCommit 0 (s1.stagedCommit 0 2 false true)
      else s
    | none => s)

/-- STEP_SEQ_END (R200): on tick Q + 400,000,000 the squelch lifts and the sequence ends; the held writes follow on the
next tick. -/
def execStepSeqEnd (s : State) : Host.Outcome State Fault Refusal :=
  .next (
    match s.bridge.stepQ with
    | some q =>
      if reached s.nut (q + squelchSpan) then
        let s1 := (s.brg fun b => { b with stepAt := none, stepQ := none, stepped := false }).setBit Reg.brgLoopStat 16 false
        { s1 with edges := s1.edges.map fun e => { e with step := false } }
      else s
    | none => s)

/-- UNSEQ_SQUELCH_END (R201): 400,000,000 ticks after the commit the squelch of output OUTo ends. -/
def execUnseqSquelchEnd (o : OutId) (s : State) : Host.Outcome State Fault Refusal :=
  .next (
    match (s.edges.get o).unseq with
    | some t => if reached s.nut t then s.setEdge o { s.edges.get o with unseq := none } else s
    | none => s)

/-! ### Frequency outputs (R205, R206) -/

/-- A synthesiser restarted: LOCK is 0 and its clock stands until its PLL locks (R206); M' is steered by the r in force (R205). -/
def State.foutRestart (s : State) (f : FoutId) : State :=
  let s1 := s.setBit (Reg.brgFoutCtrl f) 15 false
  let k : Fin 5 := ⟨f.val, by omega⟩
  { s1 with synths := vset s1.synths k (Synth.cold.steer (s1.synthM k) (s1.reg40 Reg.brgSteer).toInt),
            foutClk := vset s1.foutClk f FoutClk.cold }

/-- M within 11.25 to 15.0, or DIV from 6 on (R205). -/
def foutInRange (div : Bool) (v : Nat) : Bool :=
  if div then decide (6 ≤ v % 2 ^ 40) else decide (45 * 2 ^ 46 ≤ v % 2 ^ 54) && decide (v % 2 ^ 54 ≤ 15 * 2 ^ 48)

/-- A value committed to BRG_FOUT_M or BRG_FOUT_DIV (R206): outside its range it is refused. -/
def State.foutSet (s : State) (f : FoutId) (div : Bool) (v : Nat) : State :=
  if foutInRange div v then
    (s.setRegN (if div then Reg.brgFoutDiv f else Reg.brgFoutM f) (if div then 2 else 3)
      (if div then v % 2 ^ 40 else v % 2 ^ 54)).foutRestart f
  else s.setBit (Reg.brgFoutCtrl f) 13 true

/-- FOUT_COMMIT (R206): the write of the highest word of BRG_FOUT_M or BRG_FOUT_DIV. -/
def execFoutCommit (f : FoutId) (div : Bool) (v : Word) (s : State) : Host.Outcome State Fault Refusal :=
  let a := if div then Reg.brgFoutDiv f else Reg.brgFoutM f
  let k := if div then 2 else 3
  .next (s.hostWrite a fun s =>
    let x := s.commitValue a k v
    (s.shadowCommit a k x).foutSet f div x)

/-- FOUT_PLL_LOCK (R206): the clock runs from a phase that has no defined relation to T0, and is released at its next rising edge
(R204). -/
def execFoutPllLock (f : FoutId) (s : State) : Host.Outcome State Fault Refusal :=
  .next (
    if s.rBit (Reg.brgFoutCtrl f) 19 then
      let (v, s1) := s.free 88
      { s1.setBit (Reg.brgFoutCtrl f) 15 true with
        foutClk := vset s1.foutClk f { acc := v.toNat % s1.foutPeriod f, gated := true } }
    else s)

/-- The FOUT clocks over one tick (R204). -/
def State.foutTicks (s : State) : State := { s with foutClk := Vector.ofFn s.foutTick }

end Sys2Proof.Machine
end

