-- ==== Sys2Proof/Machine/CntOps.lean ====
section
/-! DEFINITION. Performance counters: their values (R420, R421), the events they select (R423, R424), and the per-tick counts
(R422 to R424). -/

namespace Sys2Proof.Machine

/-- A counter at 0. -/
def Counter.zero : Counter := { val := 0, ovf := false }

/-- Counter number n (R421). -/
def State.cnt (s : State) (n : Nat) : Counter := (Sparse.find s.counters n).getD Counter.zero

/-- Counter number n set. -/
def State.setCnt (s : State) (n : Nat) (c : Counter) : State :=
  { s with counters := Sparse.write (fun _ => some Counter.zero) s.counters n c }

/-- Counter number n advanced by k (R420): it wraps modulo 2⁶⁰ and then sets its overflow bit. -/
def State.count (s : State) (n k : Nat) : State :=
  let c := s.cnt n
  let v := c.val.toNat + k
  if k = 0 then s else s.setCnt n { val := BitVec.ofNat 60 v, ovf := c.ovf || decide (2 ^ 60 ≤ v) }

/-- The numbers of the counters of a string, a port, a course and the device (R421). -/
abbrev Cnt.str (st k : Nat) : Nat := st * 16 + k
abbrev Cnt.prt (p k : Nat) : Nat := 0x400 + p * 16 + k
abbrev Cnt.crs (c k : Nat) : Nat := 0x800 + c * 16 + k
abbrev Cnt.dev (k : Nat) : Nat := 0xC00 + k

/-- The word in force of a counter select: the old one until its write's effect tick has passed (R431). -/
def State.selWord (s : State) (a : Nat) : Word :=
  match Sparse.find s.cntReq a with
  | some q => q.old
  | none => s.reg a

/-- A write of a counter register that clears counters crosses to the time island (R431, R462; arrival on the tick of the write is a
DESIGN CHOICE, notes/assumptions/107.md): the register reads `v`; behind a write that crosses, the newest waits. -/
def State.offerCnt (s : State) (a : Nat) (cnts : List Nat) (v : Word) : State :=
  let put := fun (q : CntReq) => { s with cntReq := Sparse.insert s.cntReq a q }.setReg a v
  match Sparse.find s.cntReq a with
  | some q => put (if q.at_.isSome then { q with next := some v } else { q with val := v })
  | none =>
    let q : CntReq := { cnts := cnts, old := s.reg a, val := v, at_ := if s.isVoid 49 then none else some s.nut, next := none }
    if s.isVoid 49 then put q else (put q).depart 49 (.cnt a)

/-- The end of a counter write's effect tick: its counters are 0, and the write behind it arrives (R431). -/
def State.cntEffect (s : State) (a : Nat) (q : CntReq) : State :=
  let t := (q.cnts.foldl (fun u n => u.setCnt n Counter.zero) s).land (.cnt a)
  match q.next with
  | some v =>
    { t with cntReq := Sparse.insert t.cntReq a { q with old := q.val, val := v, at_ := some t.nut, next := none } }.depart 49 (.cnt a)
  | none => { t with cntReq := Sparse.erase t.cntReq a }

/-- The end of a tick for the counters (R428, R431): the writes that arrived on the tick before take effect, and the values are
those that the next tick starts with. -/
def State.cntEndTick (s : State) : State :=
  let t := s.cntReq.foldl (fun u e => if e.2.at_.any (fun n => n != s.nut) then u.cntEffect e.1 e.2 else u) s
  { t with cntStart := t.counters }

/-- An event of a string counted in each EVk that selects it (R423). -/
def State.strEvent (s : State) (st : StrId) (evt n : Nat) : State :=
  foldFin 8 (fun k u => if fld (u.selWord (Reg.pmcStrSel st k)) 15 5 == evt then u.count (Cnt.str st (2 + k)) n else u) s

/-- An event of a course counted in each CEVk that selects it, for a class or ring (R424). -/
def State.crsEvent (s : State) (c : CourseId) (evt : Nat) (qual : Option Nat) (n : Nat) : State :=
  foldFin 4 (fun k u =>
    let w := u.selWord (Reg.pmcCrsSel c k)
    let mine :=
      match qual with
      | some q => !bitOf w 14 || fld w 11 3 == q
      | none => true
    if fld w 15 5 == evt && mine then u.count (Cnt.crs c k) n else u) s

/-- How many contexts of a string are in a state. -/
def State.ctxCount (s : State) (st : StrId) (m : CtxMode) : Nat :=
  ((strCtxs st).filter fun x => (s.ctx x).mode == m).length

/-- The counts of one string on one tick: TOTAL always; BUSY while a context is in RUN or STALL, and EVT 4 to 6 (R422,
R423). -/
def State.strTick (s : State) (st : StrId) : State :=
  let r := s.ctxCount st .run
  let l := s.ctxCount st .stall
  let w := s.ctxCount st .wait
  let s1 := s.count (Cnt.str st 1) 1
  let s2 := if 0 < r + l then s1.count (Cnt.str st 0) 1 else s1
  ((s2.strEvent st 4 r).strEvent st 5 l).strEvent st 6 w

/-- The free receive slots of a course (R279). -/
def State.freeSlots (s : State) (c : CourseId) : List Nat :=
  (List.range (s.rFld (Reg.crsBufCfg c) 0 9)).filter fun k => !(s.course c).used.contains k

/-- The counts of one course on one tick: lanes that hold a job, and a receive pool with no free slot (R424). -/
def State.crsTick (s : State) (c : CourseId) : State :=
  let n := (((s.course c).lanes.toList).filter fun l => l.job.isSome).length
  let s1 := s.crsEvent c 7 none n
  if s.powered (1 + c.val) && (s.freeSlots c).isEmpty then s1.crsEvent c 8 none 1 else s1

/-- The counts of one tick (R422 to R424). -/
def State.countTick (s : State) : State := foldFin 4 (fun c u => u.crsTick c) (foldFin 16 (fun st u => u.strTick st) s)

end Sys2Proof.Machine
end

