-- ==== Sys2Proof/Machine/CtxOps.lean ====
section
/-! DEFINITION. Contexts: work items and their ends (R306 to R310, R325, R329), receive slots (R279, R280), events, waits and
wake records (R318 to R324), context and string faults (R329 to R333), and course states (R334, R335). -/

namespace Sys2Proof.Machine

/-- A context enters RUN; a string with none in RUN before issues nothing from this tick on (R331). -/
def State.enterRun (s : State) (x : CtxId) : State :=
  let st := strOf x
  let s1 := if s.ctxCount st .run = 0 then { s with quiet := vset s.quiet st s.nut } else s
  s1.onCtx x fun c => { c with mode := .run }

/-- A string's fault fences it (STR_STAT.FAULT, R332). -/
def State.strFenced (s : State) (st : StrId) : Bool := s.rBit (Reg.strStat st) 19

/-! ### Receive slots -/

/-- A receive slot returns to the pool (R280). -/
def State.freeSlot (s : State) (c : CourseId) (k : Nat) : State := s.onCourse c fun v => { v with used := v.used.erase k }

/-- A slot taken from the pool: a free choice among the free slots (R279). -/
def State.takeSlot (s : State) (c : CourseId) : Option (Nat × State) :=
  let fs := s.freeSlots c
  let (v, s1) := s.free 9
  match fs[v.toNat % max 1 fs.length]? with
  | some k => some (k, s1.onCourse c fun w => { w with used := k :: w.used })
  | none => none

/-- Whether slot k of a course lies in the receive pool (R279). -/
def State.inPool (s : State) (c : CourseId) (k : Nat) : Bool := decide (k < s.rFld (Reg.crsBufCfg c) 0 9)

/-- A context that ends its work item with a slot releases it, and CRS_ORPHAN counts it (R280, R325). -/
def State.orphanSlot (s : State) (x : CtxId) : State :=
  let c := courseOf x
  match (s.ctx x).slot with
  | some k => (((s.freeSlot c k).onCtx x fun v => { v with slot := none }).addSat (Reg.crsOrphan c) 1).crsEvent c 9 none 1
  | none => s

/-- The end of a context's work item (R325, R367): its sends and jobs still outstanding count on until they complete, their completions
are discarded, and E0 and E1 are cleared. -/
def State.endItem (s : State) (x : CtxId) (m : CtxMode) : State :=
  (s.orphanSlot x).onCtx x fun v =>
    { v with mode := m, waiting := none, done := [], item := v.item + 1, e0 := none, e1 := none }

/-- A context abandoned (R306, R332, R335). -/
def State.abandon (s : State) (x : CtxId) : State :=
  if (s.ctx x).mode = .idle then s else s.endItem x .idle

/-! ### Faults of contexts and strings -/

/-- Whether the context record of a course may be written on this tick: 1 ms after the last one (R449). -/
def State.ctxRecordDue (s : State) (c : CourseId) : Bool :=
  match s.irq.ctxAt.get c with
  | some t => reached s.nut (t + msNut 1)
  | none => true

/-- A context fault (R329, R449, R457): its code and PC are kept and counted, and the context leaves its work item; D1 and
D2 name the damaged word for an ECC_DATA fault. -/
def State.ctxFaultAt (s : State) (x : CtxId) (code : Nat) (d1 d2 : Word) : State :=
  let c := courseOf x
  let st := strOf x
  let pc := (s.ctx x).pc.toNat
  let s1 := s.setReg (Reg.strCtxFault st (x.val % 8)) (BitVec.ofNat 20 (code * 65536 + pc))
  let s2 := ((s1.addSat (Reg.crsCtxFaults c) 1).orReg (Reg.crsCause c) 0x20000).strEvent st 14 1
  let s3 :=
    if s2.ctxRecordDue c then
      { s2.errRecord code 1 12 x.val d1 d2 with
        irq := { (s2.errRecord code 1 12 x.val d1 d2).irq with ctxAt := vset s2.irq.ctxAt c (some s2.nut) } }
    else s2
  if s3.rBit (Reg.strCtl st) 18 then (s3.endItem x .halted).orReg (Reg.crsCause c) 0x08000 else s3.endItem x .idle

/-- A context fault whose record names its PC (R457). -/
def State.ctxFault (s : State) (x : CtxId) (code : Nat) : State :=
  s.ctxFaultAt x code (BitVec.ofNat 20 (s.ctx x).pc.toNat) 0

/-- A context fault on a damaged word: ECC_DATA, with MEM and ADDR (R341, R457). -/
def State.eccFault (s : State) (x : CtxId) (mem addr : Nat) : State :=
  s.ctxFaultAt x 6 (BitVec.ofNat 20 (mem * 65536 + addr / 2 ^ 20)) (BitVec.ofNat 20 addr)

/-- The contexts of a string in RUN, bit x for context x (R457). -/
def State.runMask (s : State) (st : StrId) : Nat :=
  ofBits ((strCtxs st).map fun x => (s.ctx x).mode == .run)

/-- A string fault (R332, R449): the record, the fence, and its contexts abandoned. -/
def State.strFault (s : State) (st : StrId) (code : Nat) (d1 d2 : Word) : State :=
  let s1 := s.errRecord code 2 2 st.val d1 d2
  let s2 := ((s1.setBit (Reg.strStat st) 19 true).setFld (Reg.strStat st) 15 4 code).orReg (Reg.crsCause (strCourse st)) 0x10000
  (strCtxs st).foldl (fun u x => u.abandon x) s2

/-- The register files and call stacks of a string cleared and its contexts IDLE (R309, R333). -/
def State.clearStr (s : State) (st : StrId) : State :=
  (strCtxs st).foldl (fun u x =>
    let v := u.abandon x
    v.onCtx x fun c => { Ctx.cold with item := c.item, sends := c.sends, jobs := c.jobs }) s

/-! ### Events and waits -/

/-- The expiry tick of a wait's deadline (R321). -/
def expiryOf (d : Nut) : Nat := tickUp d

/-- A wait still takes an event that arrives on tick n: not after its expiry tick (R322). -/
def Waiting.takes (w : Waiting) (n : Nut) : Bool :=
  match w.deadline with
  | some d => decide (n.toNat ≤ expiryOf d)
  | none => true

/-- A wait names an event (R318). -/
def Waiting.names (w : Waiting) (b : Nat) : Bool := w.mask.getLsbD b

/-- The wake record of a completion (R323). -/
def Done.record (d : Done) : List Word :=
  if d.crypto then
    [12, BitVec.ofNat 20 (d.status * 65536 + d.tag.toNat), 0, 0, 0, 0, 0, 0]
  else
    [13, BitVec.ofNat 20 (d.status * 65536 + d.slot.toNat * 32768 + d.tag.toNat)] ++ toWords 4 d.t.toNat ++
      [BitVec.ofNat 20 (d.tg.toNat * 2 ^ 19 + d.calw.toNat * 2 ^ 18 + d.perNom.toNat * 2 ^ 17 + d.gen.toNat),
       BitVec.ofNat 20 (min 0xFFFFF d.late)]

/-- A wake with E = 1 (R321, R323, R330): the record goes to G(DST) on. -/
def State.wake (s : State) (x : CtxId) (rec : List Word) : State :=
  match (s.ctx x).waiting with
  | some w =>
    (s.onCtx x fun c =>
      let d := c.wr w.dst.toNat rec
      { d with waiting := none, issued := 0, fl := { d.fl with e := true, t := false } }).enterRun x
  | none => s

/-- A wake by a completion; a SEND wake sets L for LATE and clears it otherwise (R324). -/
def State.wakeDone (s : State) (x : CtxId) (d : Done) : State :=
  let s1 := s.wake x d.record
  if d.crypto then s1 else s1.onCtx x fun c => { c with fl := { c.fl with l := d.status == 3 } }

/-- The pending count of event e of a course (CRS_EVTe.PEND). -/
def State.pendOf (s : State) (c : CourseId) (e : Nat) : Nat := s.rFld (Reg.crsEvt c e) 0 16

/-- One pending raise of event e consumed by a wake of context x (R319, R323). -/
def State.wakeEvent (s : State) (x : CtxId) (e : Nat) : State :=
  let c := courseOf x
  let n := s.pendOf c e - 1
  (s.setFld (Reg.crsEvt c e) 0 16 n).wake x [BitVec.ofNat 20 e, BitVec.ofNat 20 n, 0, 0, 0, 0, 0, 0]

/-- A wake by DRAIN (R323). -/
def State.wakeDrain (s : State) (x : CtxId) : State := s.wake x [11, 0, 0, 0, 0, 0, 0, 0]

/-- The lowest-numbered context of a course that waits on event e and still takes it (R319). -/
def State.waiterOf (s : State) (c : CourseId) (e : Nat) : Option CtxId :=
  (courseCtxs c).find? fun x =>
    match (s.ctx x).waiting with
    | some w => (s.ctx x).mode == .wait && w.names e && w.takes s.nut
    | none => false

/-- A course event raised (R319): counted, saturating with SAT and EVT_SAT; it wakes one waiter at once. Course reset holds the
counts at 0 (R472). -/
def State.raiseEvent (s : State) (c : CourseId) (e : Nat) : State :=
  if s.crsState c = CS.reset then s else
  let n := s.pendOf c e
  let s0 := s.crsEvent c 13 none 1
  let s1 := if 65535 ≤ n then (s0.setBit (Reg.crsEvt c e) 19 true).orReg (Reg.crsCause c) 0x01000
    else s0.setFld (Reg.crsEvt c e) 0 16 (n + 1)
  match s1.waiterOf c e with
  | some x => s1.wakeEvent x e
  | none => s1

/-- What wakes a context: the lowest named bit with an event that arrived in time (R321, R322). -/
inductive WakeBy where
  | course (e : Nat)
  | drain
  | done (i : Nat)
  deriving DecidableEq, Repr

/-- The event that wakes context x under wait w, if one has arrived in time. -/
def State.wakeBy (s : State) (x : CtxId) (w : Waiting) : Option WakeBy :=
  let c := courseOf x
  match (List.range 11).find? fun e => w.names e && s.pendOf c e != 0 && w.takes s.nut with
  | some e => some (.course e)
  | none =>
    if w.names 11 && s.crsState c == CS.draining && w.takes s.nut then some .drain
    else
      let q := (s.ctx x).done
      match q.findIdx? fun d => d.crypto && w.names 12 && w.takes d.at_ with
      | some i => some (.done i)
      | none =>
        match q.findIdx? fun d => !d.crypto && w.names 13 && w.takes d.at_ with
        | some i => some (.done i)
        | none => none

/-- The wake of context x by what `wakeBy` found. -/
def State.wakeWith (s : State) (x : CtxId) : WakeBy → State
  | .course e => s.wakeEvent x e
  | .drain => s.wakeDrain x
  | .done i =>
    match (s.ctx x).done[i]? with
    | some d => (s.onCtx x fun c => { c with done := c.done.eraseIdx i }).wakeDone x d
    | none => s

/-- A wake by the deadline (R321, R323). -/
def State.wakeTimeout (s : State) (x : CtxId) : State :=
  (s.wake x [0xFFFFF, 0, 0, 0, 0, 0, 0, 0]).onCtx x fun c => { c with fl := { c.fl with e := false, t := true } }

/-- A wait issued (R321, R322): a pending event wakes it at once, else a deadline already passed expires at once. -/
def State.startWait (s : State) (x : CtxId) (w : Waiting) : State :=
  let s1 := s.onCtx x fun c =>
    { c with mode := .wait, waiting := some w, fl := { c.fl with e := false, t := false } }
  match s1.wakeBy x { w with deadline := none } with
  | some b => s1.wakeWith x b
  | none =>
    match w.deadline with
    | some d => if expiryOf d < s1.nut.toNat then s1.wakeTimeout x else s1
    | none => s1

/-- A context in STALL over its outstanding limit or a range of its own jobs returns to RUN when an operation of its own
completes (R306, R320). -/
def State.unstall (s : State) (x : CtxId) : State :=
  let c := s.ctx x
  if c.mode = .stall ∧ c.stall = .own then s.enterRun x else s

/-- The contexts of a course in STALL on a slot return to RUN when the send of that slot completes (R306, R358). -/
def State.unstallSlot (s : State) (c : CourseId) (k : Nat) : State :=
  (courseCtxs c).foldl (fun u x =>
    if (u.ctx x).mode = .stall ∧ (u.ctx x).stall = .slot ∧ (u.ctx x).pw.toNat / 2048 = k then u.enterRun x else u) s

/-- The completion of a send of a context's work item queued as an event where it asks for one (R320). -/
def State.queueDone (s : State) (x : CtxId) (d : Done) : State :=
  s.onCtx x fun c => { c with done := c.done ++ [d] }

/-! ### Course states -/

/-- The sends that a port holds (R292, R294, R87). -/
def PortSt.sends (p : PortSt) : List Send :=
  p.queues.toList.flatten ++ p.launch ++ p.stage ++ p.depart ++ p.fill.map Filling.send

/-- A send of a context of course c has not ended (R320). -/
def State.sendsOut (s : State) (c : CourseId) : Bool :=
  (s.ports.toList.any fun p => p.sends.any fun e => e.course == c && e.x.isSome) ||
    (s.course c).sent.any fun e => e.send.x.isSome

/-- A course is ready to enter DRAINED: every context IDLE or HALTED with nothing outstanding (R335). -/
def State.allQuiet (s : State) (c : CourseId) : Bool :=
  ((courseCtxs c).all fun x => (s.ctx x).mode == .idle || (s.ctx x).mode == .halted) &&
    (s.course c).jobs.isEmpty && !s.sendsOut c && (s.course c).lanes.toList.all fun l => l.job.isNone

/-- The course enters DRAINED (R335). -/
def State.enterDrained (s : State) (c : CourseId) : State :=
  ((s.setCrsState c CS.drained).onCourse c fun v => { v with drainAt := none }).orReg (Reg.crsCause c) 0x04000

/-- The event counts of a course cleared (R319). -/
def State.clearEvents (s : State) (c : CourseId) : State :=
  (List.range 11).foldl (fun u e => u.setFld (Reg.crsEvt c e) 0 16 0) s

/-- The contexts of a course IDLE with G0 to G50 at 0 (R335). -/
def State.freshCtxs (s : State) (c : CourseId) : State :=
  (courseCtxs c).foldl (fun u x => (u.abandon x).onCtx x fun v =>
    { v with mode := .idle, g := Vector.ofFn fun i => if i.val ≤ 50 then 0 else v.g.get i }) s

/-- A program's nut replica of a course is out of service (R451). -/
def State.replicaOut (s : State) (c : CourseId) : Bool :=
  (s.replicas.get ⟨c.val, by omega⟩).fence != Fence.service

end Sys2Proof.Machine
end

