-- ==== Sys2Proof/Machine/HarpSig.lean ====
section
/-! DEFINITION. The harp's signals: what R216, R227 and R237 fix of each, its codes in the sample stream, samples and noise
floors. Nothing here changes State. -/

namespace Sys2Proof.Machine

/-! ### Signals -/

/-- Search steps in a code period (R227). -/
def codeSteps (sig : Nat) : Nat := match sig with | 0 => 2046 | 1 => 16368 | _ => 20460
/-- The length of a primary code in ms (R216). -/
def codeMs (sig : Nat) : Nat := if sig = 1 then 4 else 1
/-- The coherent interval T_c in ms (R227). -/
def cohMs (sig : Nat) : Nat := if sig = 1 then 4 else 1
/-- The width W of a bin in Hz (R227). -/
def binHz (sig : Nat) : Nat := if sig = 1 then 125 else 500
/-- A signal of the lower band (R216). -/
def lowerBand (sig : Nat) : Bool := decide (2 ≤ sig)
/-- SIG and PRN match (R216). -/
def prnOk (sig prn : Nat) : Bool :=
  if sig % 2 = 0 then decide (1 ≤ prn ∧ prn ≤ 63) || decide (193 ≤ prn ∧ prn ≤ 202) else decide (1 ≤ prn ∧ prn ≤ 50)
/-- The carrier in 2⁻¹⁶ Hz: the centre of the signal's band (R218). -/
def carrierOf (sig : Nat) : Int := (if lowerBand sig then 1176450000 else 1575420000) * 65536
/-- A symbol of the data component in ms (R216; I/NAV, F/NAV and CNAV symbols as R260's references lay them down, PRESUMED, log
entry 181). -/
def symLen (sig : Nat) : Nat := match sig with | 0 => 20 | 1 => 4 | 2 => 10 | _ => 20

/-- The value and the pair of a sample's codes (R217): 2c + 1 on each bus, I and Q exchanged where SWAP says so (R218). -/
def sampleOf (swap : Bool) (r : SampleRun) : Int × Int :=
  let v := fun (c : BitVec 4) => 2 * c.toInt + 1
  if swap then (v r.q, v r.i) else (v r.i, v r.q)

/-! ### Secondary codes (R216, R237) -/

/-- The chips of a code written as bits, the first chip on top. -/
def chipsOf (n : Nat) (v : BitVec n) : List Bool := (List.range n).map fun i => v.getMsbD i

/-- The secondary code that the sync of a signal looks for (R237): CS25 of E1-C, NH20 of Q5, CS100 of E5a-Q. The spec names these
codes; their chips are PRESUMED from the signals' interface documents (log entry 182). -/
def pilotCode (sig prn : Nat) : List Bool :=
  match sig with
  | 1 => chipsOf 25 0x07015B2
  | 2 => chipsOf 20 0x04D4E
  | _ => Config.secondary prn

/-- The secondary chip of the data component (R216), `ms` milliseconds after a secondary code began: NH10 of I5, CS20 of E5a-I.
PRESUMED chips (log entry 182). -/
def dataChip (sig ms : Nat) : Bool :=
  match sig with
  | 2 => (chipsOf 10 0x035).getD (ms % 10) false
  | 3 => (chipsOf 20 0x842E9).getD (ms % 20) false
  | _ => false

/-! ### Codes in the sample stream -/

/-- The difference of two sample positions in 2⁻³² sample, modulo 2⁸⁰, signed (R221, R223). -/
def sampleDiff (a b : Nat) : Int := (BitVec.ofInt 80 ((a : Int) - (b : Int))).toInt

/-- A sample position moved. -/
def samplePos (a : Nat) (d : Int) : Nat := (BitVec.ofInt 80 ((a : Int) + d)).toNat

/-- 2³² units of a sample position make a sample; 61,380 samples a millisecond (R236). -/
def msSpan : Int := 61380 * 4294967296

/-- The samples, in 2⁻³², that `ms` milliseconds of a signal's code take at a Doppler: the code NCO runs at
f_chip × (1 + f_D / f_carrier) (R233). -/
def codeSpan (sig : Nat) (dopp : Int) (ms : Int) : Int :=
  roundHaz (ms * msSpan * carrierOf sig) (carrierOf sig + dopp)

/-- The time of a signal, in 2⁻³⁰ ms, that passes over samples at a Doppler (R233, R256). -/
def signalTime (sig : Nat) (dopp d : Int) : Int :=
  roundHaz (d * (carrierOf sig + dopp)) (carrierOf sig * 245520)

/-- The first chip 0 of a signal at or after a sample position (R230, R240): the code is propagated at its Doppler. -/
def edgeAfter (sig : Nat) (pk : Peak) (from_ : Nat) : Nat :=
  let span := codeSpan sig pk.dopp (codeMs sig : Nat)
  let k := -((-(sampleDiff from_ pk.pos)) / span)
  samplePos pk.pos (codeSpan sig pk.dopp (k * (codeMs sig : Nat)))

/-- A search step in 2⁻³² sample (R227). -/
def stepSpan (sig : Nat) : Int := msSpan * (codeMs sig : Nat) / (codeSteps sig : Nat)

/-- The code phase of a chip 0 in search steps, by the first sample of a pass (R227). -/
def phaseAt (sig pos si : Nat) : Nat :=
  ((roundHaz (sampleDiff pos (si * 2 ^ 32)) (stepSpan sig)) % (codeSteps sig : Int)).toNat

/-- f_U × 115 / 154 (R231). -/
def doppDown (d : Int) : Int := roundHaz (d * 115) 154
/-- f_L × 154 / 115 (R231). -/
def doppUp (d : Int) : Int := roundHaz (d * 154) 115

/-- A remainder of a sample distance, not negative. -/
def spanMod (d span : Int) : Int := d % span

/-- The bias B in 2⁻³² sample: 0.06138 samples a ns (R231). -/
def biasSpan (b : Int) : Int := roundHaz (b * 6138 * 4294967296) 100000

/-- Where the lower-band code of an upper-band signal is expected, by the first sample of a pass (R231). -/
def lowerPeak (usig : Nat) (bias : Int) (pk : Peak) (si : Nat) : Peak :=
  let at0 := si * 2 ^ 32
  let e := sampleDiff (edgeAfter usig pk at0) at0
  { pos := samplePos at0 (spanMod (spanMod e msSpan + biasSpan bias) msSpan), dopp := doppDown pk.dopp }

/-- The circular distance of two positions in a period. -/
def spanDist (a b span : Int) : Int := let d := spanMod (a - b) span; min d (span - d)

/-- Where the upper-band code of a lower-band signal is expected: R231's inverse (R240). The lower code fixes it to a millisecond;
of an E1 code's four it is the one nearest to the channel's own `own`, DEDUCED (log entry 183). -/
def upperPeak (lsig sig : Nat) (bias : Int) (pk own : Peak) (si : Nat) : Peak :=
  let at0 := si * 2 ^ 32
  let e := spanMod (sampleDiff (edgeAfter lsig pk at0) at0 - biasSpan bias) msSpan
  let o := sampleDiff (edgeAfter sig own at0) at0
  let period := msSpan * (codeMs sig : Nat)
  let best := (List.range (codeMs sig)).foldl (fun (b : Int) k =>
    let x := e + k * msSpan
    if spanDist x o period < spanDist b o period then x else b) e
  { pos := samplePos at0 best, dopp := doppUp pk.dopp }

/-! ### Cells -/

/-- The largest S of a pass and its cell; with ties, the lowest (R228). -/
def bestCell (ss : List Nat) : Nat × Nat :=
  let m := ss.foldl max 0
  (ss.findIdx (· == m), m)

/-- Two cells lie in one 3 × 3 block (R228): `p` code phases a bin, which wrap where the search covers the whole code. -/
def sameBlock (p : Nat) (wrap : Bool) (a b : Nat) : Bool :=
  let d := max (a % p) (b % p) - min (a % p) (b % p)
  decide (max (a / p) (b / p) ≤ min (a / p) (b / p) + 1) && (decide (d ≤ 1) || (wrap && d + 1 == p))

/-- The noise floor μ of a pass (R228) as a sum over a count: S of its cells, numbered from `first`, less the 3 × 3 around cell
`top`. -/
def noiseFloor (p : Nat) (wrap : Bool) (first top : Nat) (ss : List Nat) : Nat × Nat :=
  (ss.zipIdx first).foldl (fun m x => if sameBlock p wrap x.2 top then m else (m.1 + x.1, m.2 + 1)) (0, 0)

/-- S_max ≥ (THR / 16) × μ (R228). -/
def passes (thr sMax : Nat) (mu : Nat × Nat) : Bool := decide (thr * mu.1 ≤ sMax * 16 * mu.2)

/-- The verdict of a verification's dwells (R229): two that pass confirm the cell, one failure in the first two leaves it to
the third. -/
def verdict : List Bool → Option Bool
  | [true, true] => some true
  | [false, false] => some false
  | [_, _, b] => some b
  | _ => none

end Sys2Proof.Machine
end

