-- ==== Sys2Proof/Machine/HarpOps.lean ====
section
/-! DEFINITION. The harp's operations on State: the sample-to-nut map (R222, R223), channel states and timers (R235, R236), what an
epoch latches (R251), results and handovers (R230, R248). -/

namespace Sys2Proof.Machine

/-- The harp works: PD10 is on and HARP_CTRL.EN is 1 (R244). -/
def State.harpOn (s : State) : Bool := s.powered 10 && s.rBit Reg.harpCtrl 19
/-- CLK_OK (R219). -/
def State.clkOk (s : State) : Bool := s.rBit Reg.harpStat 19
/-- MAP_VALID (R222). -/
def State.mapValid (s : State) : Bool := s.rBit Reg.harpStat 18
/-- The harp beside its registers, changed. -/
def State.onHarp (s : State) (f : Harp → Harp) : State := { s with harp := f s.harp }
/-- Channel h beside its registers. -/
def State.chan (s : State) (h : ChanId) : Chan := s.harp.chans.get h
/-- A channel changed. -/
def State.onChan (s : State) (h : ChanId) (f : Chan → Chan) : State :=
  s.onHarp fun v => { v with chans := vset v.chans h (f (v.chans.get h)) }
/-- STATE of a channel (R247): 0 IDLE, 1 PULLIN, 2 TRACK, 3 SYNC, 4 LOST. -/
def State.chState (s : State) (h : ChanId) : Nat := s.rFld (Reg.harpChStat h) 17 3
/-- SIG of a channel. -/
def State.chSig (s : State) (h : ChanId) : Nat := s.rFld (Reg.harpChCfg h) 18 2
/-- PRN of a channel. -/
def State.chPrn (s : State) (h : ChanId) : Nat := s.rFld (Reg.harpChCfg h) 10 8
/-- The linked partner of a channel (R231). -/
def State.partner (s : State) (h : ChanId) : Option ChanId :=
  if s.rBit (Reg.harpChCfg h) 7 then some (Fin.ofNat 96 (s.rFld (Reg.harpChCfg h) 0 7)) else none

/-- MAP_VALID changed, with MAP_CHANGE where it changes (R222, R245). -/
def State.setMapValid (s : State) (b : Bool) : State :=
  if s.mapValid = b then s else (s.setBit Reg.harpStat 18 b).orReg Reg.harpCause 0x40000

/-! ### Samples and the nut -/

/-- SI of an instant `off` samples after the latest marker: 48 bits (R221). -/
def State.siAt (s : State) (off : Nat) : Nat := (s.harp.si + off) % 2 ^ 48

/-- SI of this instant: the samples since the latest marker are free, 0 to 1,023 (R221, R222); SI stands while HARP_CLK does not
run. -/
def State.liveSi (s : State) : Nat × State :=
  if s.clkOk then
    let (v, t) := s.free 10
    (t.siAt v.toNat, t)
  else (s.harp.si, s)

/-- nut(s) of a sample position in 2⁻³² sample (R223). -/
def State.nutOfSample (s : State) (pos : Nat) : Nut :=
  let k := sampleDiff pos (s.regN Reg.harpMapSi 3 % 2 ^ 48 * 2 ^ 32)
  s.reg80 Reg.harpMapNut + BitVec.ofInt 80 (roundHaz (k * (s.regN Reg.harpMapPer 3 : Nat)) ((2 : Int) ^ 64))

/-- s_e of an epoch (R250): a free value while no map has been fitted. -/
def State.epochSample (s : State) (ne : Nut) : BitVec 80 × State :=
  let d := (ne - s.reg80 Reg.harpMapNut).toInt
  let per := s.regN Reg.harpMapPer 3
  if per = 0 then s.free 80
  else (BitVec.ofInt 80 ((s.regN Reg.harpMapSi 3 % 2 ^ 48 * 2 ^ 32 : Nat) + roundHaz (d * (2 : Int) ^ 64) (per : Nat)), s)

/-- The sums of a least-squares fit: Σx, Σx², Σy, Σxy, Σy². -/
structure FitSums where
  sx  : Int
  sxx : Int
  sy  : Int
  sxy : Int
  syy : Int
  deriving DecidableEq, Repr

/-- The sums over marker stamps, newest first, `x` samples from MAP_SI at the newest, y from `ref`. -/
def fitSums (ref : Nut) : Int → List Nut → FitSums → FitSums
  | _, [], f => f
  | x, n :: ns, f =>
    let y := (n - ref).toInt
    fitSums ref (x - 1024) ns
      { sx := f.sx + x, sxx := f.sxx + x * x, sy := f.sy + y, sxy := f.sxy + x * y, syy := f.syy + y * y }

/-- The integer square root, rounded down. -/
def natRoot : Nat → Nat → Nat → Nat
  | 0, _, r => r
  | k + 1, n, r => if (r + 2 ^ k) * (r + 2 ^ k) ≤ n then natRoot k n (r + 2 ^ k) else natRoot k n r

/-- A fit of the map (R222): the value at MAP_SI and the slope as quotients over `den`, and the mean squared residual as
`res` over `resDen`, in 2⁻³² ns². -/
structure MapLine where
  a      : Int
  b      : Int
  den    : Int
  res    : Int
  resDen : Int
  deriving DecidableEq, Repr

/-- The least-squares line over `n` points. -/
def fitLine (n : Int) (f : FitSums) : MapLine :=
  let d := n * f.sxx - f.sx * f.sx
  let b := n * f.sxy - f.sx * f.sy
  let a := f.sy * f.sxx - f.sx * f.sxy
  -- Σ(y − α − βx)² = Σy² − αΣy − βΣxy
  { a := a, b := b, den := d, res := f.syy * d - a * f.sy - b * f.sxy, resDen := n * d }

/-- The RMS residual of a fit in ps, rounded down (R222). -/
def MapLine.rmsPs (m : MapLine) : Nat :=
  if m.resDen ≤ 0 then 0 else natRoot 64 ((m.res * 1000000) / (m.resDen * 4294967296)).toNat 0

/-- The fitted period lies within ±200 ppm of 1/61.38 MHz (R222). -/
def MapLine.perOk (m : MapLine) : Bool :=
  -- β × 61,380,000 / 65,536 × 10⁻⁹ = 1 ± 200 × 10⁻⁶
  let lhs := m.b * 61380000
  let one := m.den * 65536 * 1000000000
  decide ((lhs - one).natAbs * 5000 ≤ one.natAbs)

/-- The RMS residual is at most 1,000 ps (R222). -/
def MapLine.resOk (m : MapLine) : Bool := decide (m.res ≤ m.resDen * 4294967296)

/-! ### Channel states -/

/-- A channel enters a state at the sample position it stands at, from which its timers run; a change sets its bit in
HARP_CH_CAUSE (R235). Leaving SYNC ends framing, sets TOT_SRC to 0 and takes VALID back (R243, R261, R265). -/
def State.chEnter (s : State) (h : ChanId) (st : Nat) : State :=
  let was := s.chState h
  let s1 := s.setFld (Reg.harpChStat h) 17 3 st
  let s2 := if was = st then s1 else s1.orReg (Reg.harpChCause (h.val / 20)) (BitVec.ofNat 20 (2 ^ (h.val % 20)))
  let at0 := (s2.chan h).pos
  let held := decide (2 ≤ was ∧ was ≤ 3 ∧ 2 ≤ st ∧ st ≤ 3)
  let heard := decide (1 ≤ was ∧ was ≤ 3 ∧ 1 ≤ st ∧ st ≤ 3)
  let s3 := s2.onChan h fun c =>
    { c with since := at0, pliLow := if held then c.pliLow else none, cn0Low := if heard then c.cn0Low else none, lastReq := at0,
             good := 0 }
  if was = 3 ∧ st ≠ 3 then
    (s3.setBit (Reg.harpChMp h) 19 false).onChan h fun c => { c with totSrc := 0, framing := .search, navBad := 0 }
  else s3

/-- The fall to PULLIN: SLIP, and sync is lost (R235, R257). -/
def State.chSlip (s : State) (h : ChanId) : State :=
  ((s.chEnter h 1).setBit (Reg.harpChStat h) 15 true).onChan h fun c => { c with slips := (c.slips + 1) % 16 }

/-- The channel stops: IDLE, and its partner's LINKED clears (R235). -/
def State.chStop (s : State) (h : ChanId) : State :=
  if s.chState h = 0 then s
  else
    let s1 := match s.partner h with
      | some q => s.setBit (Reg.harpChCfg q) 7 false
      | none => s
    s1.chEnter h 0

/-- `ms` milliseconds of samples, 61,380 each, lie between two sample positions (R236). -/
def msBetween (a b ms : Nat) : Bool := decide ((ms : Int) * msSpan ≤ sampleDiff b a)

/-- `ms` milliseconds of samples have passed by the latest marker since a sample position (R236). -/
def State.msPassed (s : State) (from_ ms : Nat) : Bool := msBetween from_ (s.harp.si * 2 ^ 32) ms

/-- HARP_PULL_TMO has expired by the channel's last dump (R235). -/
def State.pullDue (s : State) (h : ChanId) : Bool :=
  s.chState h == 1 && msBetween (s.chan h).since (s.chan h).pos (s.rFld Reg.harpPullTmo 0 16)

/-- HARP_LOL_TMO has expired by the channel's last dump (R235). -/
def State.lolDue (s : State) (h : ChanId) : Bool :=
  match (s.chan h).cn0Low with
  | some t => decide (1 ≤ s.chState h ∧ s.chState h ≤ 3) && msBetween t (s.chan h).pos (s.rFld Reg.harpLolTmo 0 16)
  | none => false

/-- HARP_PLL_TMO has expired by the channel's last dump (R235). -/
def State.pllDue (s : State) (h : ChanId) : Bool :=
  match (s.chan h).pliLow with
  | some t => (s.chState h == 2 || s.chState h == 3) && msBetween t (s.chan h).pos (s.rFld Reg.harpPllTmo 0 16)
  | none => false

/-- The timers due on a channel's last dump, LOST before the fall to PULLIN (R236). -/
def State.takeTimers (s : State) (h : ChanId) : State :=
  if s.pullDue h || s.lolDue h then s.chEnter h 4 else if s.pllDue h then s.chSlip h else s

/-- What a channel latches for an epoch (R251, R255). -/
def State.latchOf (s : State) (h : ChanId) : Latched :=
  { h := h, cfg := s.reg (Reg.harpChCfg h), stat := s.reg (Reg.harpChStat h), mp0 := s.reg (Reg.harpChMp h),
    mp1 := s.reg (Reg.harpChMp1 h), chan := s.chan h }

/-- A channel in TRACK or SYNC (R251). -/
def State.inTrack (s : State) (h : ChanId) : Bool := s.chState h == 2 || s.chState h == 3

/-- A dump that ended at or before s_e of the epoch whose record is due, and what its transitions made of the channel, are what the
epoch latches (R251). -/
def State.relatch (s : State) (h : ChanId) : State :=
  match s.harp.epoch with
  | some e =>
    if e.valid && decide (sampleDiff (s.chan h).pos e.se.toNat ≤ 0) then
      let keep := fun (k : ChanId) =>
        if k = h then (if s.inTrack h then some (s.latchOf h) else none) else e.chans.find? fun l => l.h == k
      s.onHarp fun v => { v with epoch := some { e with chans := (List.finRange 96).filterMap keep } }
    else s
  | none => s

/-! ### Results and handovers -/

/-- The confirmed cell of a result: code phase, Doppler in Hz, S_max and μ, and SI of the dwell's first sample (R248). -/
structure Cell where
  code : Nat
  dopp : Int
  sMax : Nat
  mu   : Nat × Nat
  si   : Nat
  deriving DecidableEq, Repr

/-- S_max / μ × 16, saturating at 12 bits, rounded down (R248). -/
def Cell.ratio (c : Cell) : Nat := if c.mu.1 = 0 then 4095 else min 4095 (c.sMax * 16 * c.mu.2 / c.mu.1)

/-- A result record (R248); its cell fields are free where no cell was confirmed, and its channel where none was started. -/
def State.result (s : State) (sig prn outcome : Nat) (aided : Bool) (ch : Option ChanId) (seq : Nat) (cell : Option Cell) :
    State :=
  let wr := s.rFld Reg.harpSresWr 0 16
  if (wr + 65536 - s.rFld Reg.harpSresRd 0 16) % 65536 < 64 then
    let (f, s1) := s.free 107
    let free := f.toNat
    let (code, dopp, ratio, si) :=
      match cell with
      | some c => (c.code, (BitVec.ofInt 20 c.dopp).toNat, c.ratio, c.si)
      | none => (free % 2 ^ 20, free / 2 ^ 20 % 2 ^ 20, free / 2 ^ 40 % 2 ^ 12, free / 2 ^ 52 % 2 ^ 48)
    let chn := match ch with
      | some h => h.val
      | none => free / 2 ^ 100
    let w7 := sig * 2 ^ 18 + prn * 1024 + outcome * 256 + aided.toNat * 128 + chn
    let ws := toWords 3 si ++
      [BitVec.ofNat 20 seq, BitVec.ofNat 20 (ratio * 256), BitVec.ofNat 20 dopp, BitVec.ofNat 20 code, BitVec.ofNat 20 w7]
    ((s1.onHarp fun v => { v with mem := v.mem.writes (8 * (wr % 64)) ws }).setReg Reg.harpSresWr
      (BitVec.ofNat 20 ((wr + 1) % 65536))).orReg Reg.harpCause 0x20000
  else (s.addSat Reg.harpSresLost 1).orReg Reg.harpCause 0x08000

/-- The lowest-numbered IDLE channel (R226). -/
def State.idleChan (s : State) : Option ChanId := (List.finRange 96).find? fun (h : ChanId) => s.chState h == 0

/-- The residual offset of a signal's band in 2⁻¹⁶ Hz, by which every carrier replica of the band is shifted (R218). -/
def State.bandOffset (s : State) (sig : Nat) : Int :=
  (s.reg (if lowerBand sig then Reg.harpIfl else Reg.harpIfu)).toInt * 1048576

/-- A channel's carrier and code NCOs at a peak (R218, R230): the Doppler in HARP_CH_DOPP in 1/16 Hz. -/
def State.setPeak (s : State) (h : ChanId) (sig : Nat) (pk : Peak) : State :=
  (s.onChan h fun c =>
    { c with pos := pk.pos, dopp := pk.dopp, rate := 0, nco := pk.dopp + s.bandOffset sig, corr := Dump.zero, side := 0 }).setReg
    (Reg.harpChDopp h) (BitVec.ofInt 20 (roundHaz pk.dopp 4096))

/-- A handover (R230): the channel starts in PULLIN with its SIG and PRN and with no partner, at the confirmed code phase and
Doppler propagated to the first chip 0 at or after the sample index `si`. -/
def State.handover (s : State) (h : ChanId) (sig prn : Nat) (aid : Bool) (pk : Peak) (si : Nat) : State :=
  let cfg := s.reg (Reg.harpChCfg h)
  let s1 := s.setReg (Reg.harpChCfg h)
    ((cfg &&& 0x00300) ||| BitVec.ofNat 20 (sig * 2 ^ 18 + prn * 1024))
  let s2 := (s1.onChan h fun _ => { Chan.cold with aid := aid, halfOk := decide (sig ≠ 0) }).setPeak h sig
    { pk with pos := edgeAfter sig pk (si * 2 ^ 32) }
  let s3 := s2.setReg (Reg.harpChStat h) (s2.reg (Reg.harpChStat h) &&& 0xE0000)
  ((s3.setReg (Reg.harpChMp h) 0).setReg (Reg.harpChMp1 h) 0).chEnter h 1

/-- Two channels linked to each other (R231). -/
def State.link (s : State) (a b : ChanId) : State :=
  (s.setFld (Reg.harpChCfg a) 0 8 (128 + b.val)).setFld (Reg.harpChCfg b) 0 8 (128 + a.val)

end Sys2Proof.Machine
end

