-- ==== Sys2Proof/Machine/HarpStrum.lean ====
section
/-! DEFINITION. The strum (R226 to R232): cells, passes and windows, verification, confirmation; with it the harp's clock and resets
(R225, R244). -/

namespace Sys2Proof.Machine

/-! ### Cells and windows -/

/-- The code phases P of a search (R227). -/
def Search.codes (q : Search) : Nat := if q.window then 2 * q.codew + 1 else codeSteps q.sig
/-- The cells of a search (R227). -/
def Search.cells (q : Search) : Nat := q.codes * (2 * q.kd + 1)
/-- The passes of a search (R227). -/
def Search.passes (q : Search) : Nat := (q.cells + 8191) / 8192
/-- The cells of pass i: 8,192 × i on; the last pass may be partial (R227). -/
def Search.passCells (q : Search) (i : Nat) : Nat := min 8192 (q.cells - 8192 * i)
/-- The length of a pass of a search in ms: N × T_c. -/
def Search.passMs (q : Search) : Nat := q.n * cohMs q.sig

/-- Cell j of a search, by the first sample of its pass (R227). -/
def Search.cell (q : Search) (si j : Nat) : Peak :=
  let p := j % q.codes
  let ph : Int := if q.window then (q.codec : Int) - (q.codew : Nat) + (p : Nat) else (p : Nat)
  { pos := samplePos (si * 2 ^ 32) (spanMod ph (codeSteps q.sig : Nat) * stepSpan q.sig),
    dopp := (q.dopc + ((j / q.codes : Nat) - (q.kd : Int)) * (binHz q.sig : Nat)) * 65536 }

/-- The cells of a window: 3 × 3 around its peak, or 64 code phases by 4 bins (R229, R231). -/
def Win.cells (w : Win) : Nat := if w.peak.isSome then 9 else 256

/-- Cell j of a window, by the first sample of its pass (R229, R231). -/
def Win.cell (w : Win) (si j : Nat) : Peak :=
  match w.peak with
  | some pk =>
    { pos := samplePos (edgeAfter w.sig pk (si * 2 ^ 32)) (((j % 3 : Nat) - (1 : Int)) * stepSpan w.sig),
      dopp := pk.dopp + ((j / 3 : Nat) - (1 : Int)) * w.step }
  | none =>
    { pos := samplePos w.centre.pos (((j % 64 : Nat) - (32 : Int)) * stepSpan w.sig),
      dopp := w.centre.dopp + ((2 * (j / 64) : Nat) - (3 : Int)) * (binHz w.sig * 16384 : Nat) }

/-- The length of a window's dwell in ms (R229, R231). -/
def Win.ms (w : Win) : Nat := w.n * cohMs w.sig

/-- The band of a signal is heard: with LB_EN = 0 the lower-band buses are ignored (R244). -/
def State.hears (s : State) (sig : Nat) : Bool := !lowerBand sig || s.rBit Reg.harpCtrl 16

/-- A channel's code and Doppler. -/
def Chan.peak (c : Chan) : Peak := { pos := c.pos, dopp := c.dopp }

/-- B, the bias of the lower band in ns (R231). -/
def State.lbBias (s : State) : Int := (s.reg Reg.harpLbBias).toInt

/-- The centre of a searching window, by its pass's first sample (R231, R240): from the upper-band channel; for a reacquisition from
the partner in TRACK or SYNC, else the channel's own propagated values. -/
def State.winCentre (s : State) (w : Win) (si : Nat) : Peak :=
  match w.who with
  | .search _ => w.centre
  | .aided h => lowerPeak (s.chSig h) s.lbBias (s.chan h).peak si
  | .reacq h =>
    let own := (s.chan h).peak
    let prop : Peak := { own with pos := edgeAfter w.sig own (si * 2 ^ 32) }
    match s.partner h with
    | some q =>
      if !s.inTrack q then prop
      else if lowerBand w.sig then lowerPeak (s.chSig q) s.lbBias (s.chan q).peak si
      else upperPeak (s.chSig q) w.sig s.lbBias (s.chan q).peak own si
    | none => prop

/-! ### Passes -/

/-- A search's own passes may start: there are samples (R225). -/
def State.mayPass (s : State) : Bool := s.harpOn && s.clkOk

/-- A window may run: a reacquisition waits for MAP_VALID (R225). -/
def State.winReady (s : State) (w : Win) : Bool :=
  match w.who with
  | .reacq _ => s.mapValid
  | _ => true

/-- The strum runs no pass and has one to run: a window, the running search's next pass, or a request (R229, R232). -/
def State.strumDue (s : State) : Bool :=
  s.mayPass && !s.harp.mainOn && s.harp.small.isEmpty &&
    (s.harp.wins.any s.winReady || match s.harp.run with
      | some r => !r.verify
      | none => !s.harp.queue.isEmpty)

/-- A main pass starts at a sample index. -/
def Harp.mainPass (v : Harp) (r : SearchRun) (si : Nat) : Harp :=
  { v with run := some r, mainOn := true, passSi := si, passMs := r.req.passMs }

/-- The next pass from sample index `si` on, where none runs (R229, R232): a small pass of up to 32 waiting windows, those that have
already a verdict first, so that their dwells lie in consecutive small passes; else the next pass of the running search, else the
first pass of the next request. -/
def State.strumFrom (s : State) (si : Nat) : State :=
  if !s.strumDue then s
  else
    let v := s.harp
    let ready := v.wins.filter s.winReady
    let now := (ready.filter (fun w => !w.votes.isEmpty) ++ ready.filter (fun w => w.votes.isEmpty)).take 32
    if !now.isEmpty then
      let aim := fun (w : Win) => if w.peak.isNone then { w with centre := s.winCentre w si } else w
      s.onHarp fun x =>
        { x with small := now.map aim, wins := x.wins.filter (fun w => !now.contains w), passSi := si,
                 passMs := (now.map Win.ms).foldl max 0 }
    else
      match v.run, v.queue with
      | some r, _ => s.onHarp fun x => x.mainPass r si
      | none, q :: qs => s.onHarp fun x => ({ x with queue := qs }).mainPass { req := q, pass := 0, verify := false, done := 0 } si
      | none, [] => s

/-- The strum, where it is idle, starts its next pass now. -/
def State.strumNext (s : State) : State :=
  if s.strumDue then
    let (si, t) := s.liveSi
    t.strumFrom si
  else s

/-- SI behind the last sample of the pass that runs: passes follow one another with no gap (R227). -/
def Harp.passEnd (v : Harp) : Nat := (v.passSi + 61380 * v.passMs) % 2 ^ 48

/-- The pass that runs has ended by the next marker. -/
def State.passDone (s : State) : Bool :=
  decide (61380 * s.harp.passMs ≤ (s.harp.si + 2 ^ 48 - s.harp.passSi) % 2 ^ 48 + 1023)

/-- A window joins those that wait. -/
def State.addWin (s : State) (w : Win) : State := s.onHarp fun v => { v with wins := v.wins ++ [w] }

/-- The running search ends with an outcome that started no channel (R230, R232). -/
def State.searchEnd (s : State) (outcome : Nat) : State :=
  match s.harp.run with
  | some r => (s.result r.req.sig r.req.prn outcome false none r.req.seq none).onHarp fun v => { v with run := none, mainOn := false }
  | none => s

/-- The running search goes on after a pass that found nothing: the next pass, a repeat, or NOT_FOUND (R228, R230). -/
def State.searchOn (s : State) : State :=
  match s.harp.run with
  | some r =>
    if r.pass + 1 < r.req.passes then
      s.onHarp fun v => { v with run := some { r with pass := r.pass + 1, verify := false }, mainOn := false }
    else if 0 < r.req.reps then
      s.onHarp fun v =>
        { v with run := some { r with req := { r.req with reps := r.req.reps - 1 }, pass := 0, verify := false }, mainOn := false }
    else s.searchEnd 1
  | none => s

/-! ### Confirmation -/

/-- The running search's cell is confirmed (R230): a channel starts, or the outcome is NO_CHANNEL. -/
def State.searchFound (s : State) (c : Cell) (pk : Peak) : State :=
  match s.harp.run with
  | some r =>
    let q := r.req
    let ch := if q.auto then s.idleChan else if s.chState q.ch = 0 then some q.ch else none
    let s1 := s.onHarp fun v => { v with run := none, mainOn := false }
    match ch with
    | some h =>
      (s1.handover h q.sig q.prn (q.aidlb && !lowerBand q.sig) pk s.harp.passEnd).result q.sig q.prn 0 false (some h) q.seq (some c)
    | none => s1.result q.sig q.prn 3 false none q.seq (some c)
  | none => s

/-- An aided window's cell is confirmed (R230, R231): the lowest IDLE channel starts, linked to the upper-band channel. -/
def State.aidedFound (s : State) (w : Win) (h : ChanId) (c : Cell) (pk : Peak) : State :=
  match s.idleChan with
  | some k =>
    ((s.handover k w.sig w.prn false pk s.harp.passEnd).link h k).result w.sig w.prn 0 true (some k) 0 (some c)
  | none => s.result w.sig w.prn 3 true none 0 (some c)

/-- A reacquisition's cell is confirmed (R240): the channel returns to PULLIN with its SIG, PRN and LINK; its count of ms goes on over
the time in LOST (R256). -/
def State.reacqFound (s : State) (w : Win) (h : ChanId) (c : Cell) (pk : Peak) : State :=
  if s.chState h = 4 then
    let old := s.chan h
    let pos := edgeAfter w.sig pk (s.harp.passEnd * 2 ^ 32)
    let ms := roundHaz (signalTime w.sig old.dopp (sampleDiff pos old.pos)) ((2 : Int) ^ 30)
    let s1 := (s.onChan h fun x => { x with own := ((x.own + ms) % (2 : Int) ^ 30).toNat }).setPeak h w.sig { pk with pos := pos }
    (s1.chEnter h 1).result w.sig w.prn 0 true (some h) 0 (some c)
  else s

/-- A window that has found nothing (R229, R231, R240). -/
def State.winLost (s : State) (w : Win) : State :=
  match w.who with
  | .search _ => s.searchOn
  | .aided _ =>
    if w.tries < 2 then s.addWin { w with peak := none, votes := [], tries := w.tries + 1 }
    else s.result w.sig w.prn 1 true none 0 none
  | .reacq _ => s

/-- A window whose cell is confirmed. -/
def State.winFound (s : State) (w : Win) (c : Cell) (pk : Peak) : State :=
  match w.who with
  | .search _ => s.searchFound c pk
  | .aided h => s.aidedFound w h c pk
  | .reacq h => s.reacqFound w h c pk

/-- μ of a pass (R228): a free value over one cell where every cell of it lies in the 3 × 3. -/
def State.muOf (s : State) (p : Nat) (wrap : Bool) (first top : Nat) (ss : List Nat) : (Nat × Nat) × State :=
  let m := noiseFloor p wrap first top ss
  if m.2 = 0 then
    let (f, t) := s.free 40
    ((f.toNat, 1), t)
  else (m, s)

/-- One window of a small pass judged by S of its cells (R229, R231). -/
def State.judge (s : State) (w : Win) (ss : List Nat) : State :=
  let si := s.harp.passSi
  let (j, sMax) := bestCell ss
  if w.peak.isNone then
    let (mu, s1) := s.muOf 64 false 0 j ss
    if s.hears w.sig && passes w.thr sMax mu then s1.addWin { w with peak := some (w.cell si j), mu := mu, votes := [] }
    else s1.winLost w
  else
    let votes := w.votes ++ [s.hears w.sig && passes w.thr sMax w.mu]
    match verdict votes with
    | some true =>
      let pk := w.cell si j
      s.winFound w
        { code := phaseAt w.sig pk.pos si, dopp := roundHaz pk.dopp 65536, sMax := sMax, mu := w.mu, si := si } pk
    | some false => s.winLost w
    | none => s.addWin { w with votes := votes }

/-- A window still has its asker: a verification's search still waits for it (R232). A window whose search ABORT has ended runs to
its end, and nothing follows from it. -/
def State.wanted (s : State) (w : Win) : Bool :=
  match w.who, s.harp.run with
  | .search k, some r => r.verify && r.req.seq == k
  | .search _, none => false
  | _, _ => true

/-- The windows of a small pass judged in order; nothing follows from one whose asker is gone. -/
def State.judgeAll (s : State) : List Win → List (List Nat) → State
  | w :: ws, r :: rs => (if s.wanted w then s.judge w r else s).judgeAll ws rs
  | ws, _ => ws.foldl (fun u w => u.addWin w) s

/-- S of every cell of every window of the small pass. -/
def windowsFit : List Win → List (List Nat) → Bool
  | [], [] => true
  | w :: ws, r :: rs => r.length == w.cells && windowsFit ws rs
  | _, _ => false

/-! ### Requests -/

/-- A request from its five words (R226). -/
def State.searchOf (s : State) (v : Nat) : Search :=
  let f := fun (w lo len : Nat) => v / 2 ^ (20 * w + lo) % 2 ^ len
  let sig := f 4 18 2
  let n := f 3 14 6
  let thr := f 3 6 8
  { sig := sig, prn := f 4 10 8, window := f 4 9 1 == 1, auto := f 4 8 1 == 1, aidlb := f 4 7 1 == 1, ch := Fin.ofNat 96 (f 4 0 7),
    n := if n = 0 then s.rFld (Reg.harpSigThr sig) 0 4 else n,
    thr := if thr = 0 then s.rFld (Reg.harpSigThr sig) 12 8 else thr,
    kd := f 3 0 6, dopc := (BitVec.ofNat 20 (f 2 0 20)).toInt, codec := f 1 0 20, codew := f 0 0 16, reps := f 0 16 4,
    seq := 0 }

/-- A request is refused (R226, R232, R244). -/
def State.searchBad (s : State) (v : Nat) : Bool :=
  let q := s.searchOf v
  let lb := s.rBit Reg.harpCtrl 16
  decide (16 ≤ s.harp.queue.length) || !prnOk q.sig q.prn || decide (95 < v / 2 ^ 80 % 128) || (q.window && q.codew == 0) ||
    decide (codeSteps q.sig ≤ q.codec) || (!lb && (lowerBand q.sig || q.aidlb))

/-- A request commits (R226, R232). -/
def State.searchCommit (s : State) (n : Nat) : State :=
  if s.searchBad n then (s.setBit Reg.harpStat 16 true).orReg Reg.harpCause 0x10000
  else
    let seq := (s.rFld Reg.harpSqSeq 0 16 + 1) % 65536
    ((s.setReg Reg.harpSqSeq (BitVec.ofNat 20 seq)).onHarp fun x =>
      { x with queue := x.queue ++ [{ s.searchOf n with seq := seq }] }).strumNext

/-- A write of HARP_SREQ4 (R226, R232); with the harp off it takes effect at power-up (R476). A refused request leaves the words as
they were. -/
def State.searchWrite (s : State) (v : Word) : State :=
  let n := s.commitValue Reg.harpSreq 5 v
  let s1 := s.shadowCommit Reg.harpSreq 5 n
  if !s.harpOn then (s1.setRegN Reg.harpSreq 5 n).onHarp fun x => { x with sreqDue := true }
  else if s.searchBad n then s1.searchCommit n
  else (s1.setRegN Reg.harpSreq 5 n).searchCommit n

/-- The request written while the harp was off commits (R476). -/
def State.harpUp (s : State) : State :=
  if s.harpOn && s.harp.sreqDue then (s.onHarp fun x => { x with sreqDue := false }).searchCommit (s.regN Reg.harpSreq 5) else s

/-- A write of HARP_SQ_CMD (R232): ABORT ends the running search, FLUSH empties the queue. Small windows are never aborted. -/
def State.sqCmd (s : State) (abort flush : Bool) : State :=
  let s1 := if flush then s.onHarp fun x => { x with queue := [] } else s
  if abort then (s1.searchEnd 2).strumNext else s1

/-! ### Clock and reset -/

/-- CLK_OK falls (R225): SI stands where it is, up to 1,023 samples behind the latest marker; a small window begins again. -/
def State.clkFall (s : State) : State :=
  if !s.clkOk then s
  else
    let (si, s0) := s.liveSi
    let s1 := ((s0.onHarp fun v => { v with si := si }).setBit Reg.harpStat 19 false).setMapValid false
    let lose := fun (h : ChanId) (u : State) =>
      (u.chEnter h 4).onChan h fun c => { c with since := si * 2 ^ 32, lastReq := si * 2 ^ 32 }
    let s2 := foldFin 96 (fun h u => if u.chState h = 0 ∨ u.chState h = 4 then u else lose h u) s1
    let again := fun (w : Win) => match w.who with
      | .search _ => none
      | _ => some { w with peak := none, votes := [] }
    (s2.searchEnd 2).onHarp fun v =>
      { v with small := [], mainOn := false, wins := (v.small ++ v.wins).filterMap again }

/-- CLK_OK rises (R221, R222): SI restarts at 0; each timer keeps the samples it has measured; a LOST channel's code stands at a
position that the samples missed leave open; and the strum may run. -/
def State.clkRise (s : State) : State :=
  if s.clkOk then s
  else
    let d := -((s.harp.si * 2 ^ 32 : Nat) : Int)
    let (gap, s1) := s.free 80
    let move := fun (c : Chan) =>
      { c with since := samplePos c.since d, lastReq := samplePos c.lastReq d, pos := samplePos c.pos (d + (gap.toNat : Nat)) }
    ((s1.setBit Reg.harpStat 19 true).onHarp fun v =>
      { v with si := 0, fresh := true, markN := 0, marks := [], statU := none, statL := none, chans := v.chans.map move }).strumNext

/-- The harp reset (R244): channels IDLE, the strum's queue and windows empty, MAP_VALID and CLK_OK 0, no epoch due; its
crossing is void (R465). -/
def State.harpReset (s : State) : State :=
  let s1 := ((s.voidX 48).setMapValid false).setBit Reg.harpStat 19 false
  let s2 := foldFin 96 (fun h u => (u.setBit (Reg.harpChCfg h) 7 false).chEnter h 0) s1
  s2.onHarp fun v => { Harp.cold with mem := v.mem, sreqDue := v.sreqDue }

/-- A warm reset of the harp (R244, R472): its channels' registers and the strum's request and sequence number return to their
cold-reset values as well. -/
def State.harpWarm (s : State) : State :=
  let s1 := s.harpReset.onHarp fun v => { v with sreqDue := false }
  let keep := fun (a : Nat) =>
    !((decide (0x11000 ≤ a) && decide (a < 0x11C00)) || (decide (Reg.harpSreq ≤ a) && decide (a < Reg.harpSreq + 20)) ||
      a == Reg.harpSqSeq)
  { s1 with regs := s1.regs.filter fun e => keep e.1 }

/-- The harp memory's contents are lost (R244, R272). -/
def State.harpMemLost (s : State) : State :=
  ((s.onHarp fun v => { v with mem := Memory.lost }).setReg Reg.harpMeasWr 0).setReg Reg.harpNavWr 0

/-- A write of HARP_CTRL (R244): EN written to 0 resets the harp; EN written to 1 starts it. -/
def State.harpCtrl (s : State) (v : Word) : State :=
  let s1 := s.setReg Reg.harpCtrl (v &&& 0xF0000)
  if s.rBit Reg.harpCtrl 19 && !bitOf v 19 then s1.harpReset else s1.harpUp

end Sys2Proof.Machine
end

