-- ==== Sys2Proof/Machine/HarpChan.lean ====
section
/-! DEFINITION. Tracking: the correlators and loops of a dump (R233, R234), PLI and C/N0 (R238), sync (R237), the advance of a
channel's state (R235, R236, R239), and the multipath estimator (R242, R243). -/

namespace Sys2Proof.Machine

/-! ### Correlators and discriminators -/

/-- The square of a correlator's magnitude. -/
def mag2 (c : Int × Int) : Nat := (c.1 * c.1 + c.2 * c.2).toNat

/-- The seven correlators' offsets in 1/480 chip (R233): −2D, −D, −δ, 0, δ, D and 2D; δ is DPULL in PULLIN and DTRACK after it. -/
def State.corrOffsets (s : State) (h : ChanId) : List Int :=
  let sig := s.chSig h
  let d : Int := (s.rFld (Reg.harpSigSpc2 sig) 12 8 : Nat)
  let e : Int := (s.rFld (Reg.harpSigSpc sig) (if s.chState h = 1 then 12 else 4) 8 : Nat)
  [-2 * d, -d, -e, 0, e, d, 2 * d]

/-- The correlators of the component that tracks (R216): the data of L1 C/A, the pilot of the other signals. -/
def trackingOf (d : Dump) (sig : Nat) : Vector (Int × Int) 7 := if sig = 0 then d.data else d.pilot

/-- The FLL's discriminator over consecutive prompts (R234): their cross and dot products. -/
def crossDot (a b : Int × Int) : Int × Int := (a.1 * b.2 - a.2 * b.1, a.1 * b.1 + a.2 * b.2)

/-- The FLL's frequency error lies below 5 Hz (R235): the angle between two prompts lies within 2π × 5 Hz × T_c, over four quadrants on
a pilot, over two on data. tan(2π × 5 × 1 ms) = 0.0314262660, tan(2π × 5 × 4 ms) = 0.1263293784. -/
def fllSmall (sig : Nat) (cd : Int × Int) : Bool :=
  let t := if cohMs sig = 4 then 1263293784 else 314262660
  let dot := if sig = 0 then (cd.2.natAbs : Int) else cd.2
  decide (0 < dot) && decide ((cd.1.natAbs : Int) * 10000000000 < t * dot)

/-- The length T_i of a dump in ms (R234). -/
def State.dumpMs (s : State) (h : ChanId) : Nat :=
  let sig := s.chSig h
  if s.chState h = 3 ∧ s.rFld (Reg.harpSigSpc sig) 2 2 = 1 then 20 else cohMs sig

/-- The ms before a 20 ms dump that bring it to a bit or secondary-code boundary (R234). -/
def State.dumpGap (s : State) (h : ChanId) : Nat :=
  if s.chState h = 3 ∧ s.dumpMs h = 20 then (20 - (s.chan h).phase % 20) % 20 else 0

/-- The end of the next dump, before the code loop moves it (R233). -/
def State.dumpEnd (s : State) (h : ChanId) : Nat :=
  let c := s.chan h
  samplePos c.pos (codeSpan (s.chSig h) c.dopp ((s.dumpGap h + s.dumpMs h : Nat) : Int))

/-- The samples of the next dump have come: it ends before the next marker. -/
def State.dumpReady (s : State) (h : ChanId) : Bool :=
  decide (sampleDiff (s.dumpEnd h) ((s.harp.si + 1024) * 2 ^ 32) ≤ 0)

/-- The loops after a dump (R234): Doppler, its rate, and what the DLL moves the code by. -/
def State.loops (s : State) (h : ChanId) (old new : Vector (Int × Int) 7) : (Int × Int) × Int :=
  let sig := s.chSig h
  let c := s.chan h
  let ms := s.dumpMs h
  let pull := s.chState h == 1
  let cd := crossDot (old.get 3) (new.get 3)
  let (i, q) := new.get 3
  let car :=
    if pull then Config.carrierLoop 2 (s.rFld (Reg.harpSigLoop sig) 7 6) ms (sig != 0) cd.1 cd.2 c.dopp c.rate
    else Config.carrierLoop 3 (s.rFld (Reg.harpSigLoop sig) 13 7) ms (sig != 0) q i c.dopp c.rate
  let bw := s.rFld (Reg.harpSigLoop sig) 0 7 * (if pull then 4 else 1)
  (car, Config.codeLoop sig bw ms (mag2 (new.get 2)) (mag2 (new.get 4)))

/-! ### PLI and C/N0 -/

/-- (I² − Q²)/(I² + Q²) of a prompt as a quotient (R238): free where the prompt is 0. -/
def State.pliRatio (s : State) (c : Int × Int) : (Int × Nat) × State :=
  if mag2 c = 0 then
    let (v, t) := s.free 10
    ((v.toInt, 512), t)
  else ((c.1 * c.1 - c.2 * c.2, mag2 c), s)

/-- The sum of quotients. -/
def sumRatios : List (Int × Nat) → Int × Nat
  | [] => (0, 1)
  | (n, d) :: l => let (a, b) := sumRatios l; (n * b + a * d, d * b)

/-- PLI ≥ m / 256 over the dumps kept (R238). -/
def pliAtLeast (l : List (Int × Nat)) (m : Nat) : Bool :=
  let (n, d) := sumRatios l
  !l.isEmpty && decide ((m * d * l.length : Nat) ≤ n * 256)

/-- A ratio of powers in 1/16 dB, rounded down, 0 to 1,023: the largest k with 10^(k/160) ≤ num / den. -/
def sixteenthDb (num den : Nat) : Nat :=
  (List.range 10).foldl (fun r i =>
    let k := r + 2 ^ (9 - i)
    if 10 ^ k * den ^ 160 ≤ num ^ 160 then k else r) 0

/-- C/N0 in 1/16 dB-Hz by the moment method (R238) from the powers of prompts of `ms` milliseconds: with the mean power M2 and the
mean square of it M4, the carrier's power is √(2 M2² − M4), and the noise's is the rest of M2. -/
def momentCn0 (ms : Nat) (l : List Nat) : Nat :=
  let m2 := l.foldl (· + ·) 0
  let m4 := l.foldl (fun a x => a + x * x) 0
  let car := natRoot 128 (2 * m2 * m2 - l.length * m4) 0
  if car = 0 then 0 else if m2 ≤ car then 1023 else sixteenthDb (car * 1000) ((m2 - car) * ms)

/-! ### Sync (R237) -/

/-- Prompts in a window of the sync search, the chips that must match, and the windows in a row (R237). -/
def syncRule (sig : Nat) : Nat × Nat × Nat :=
  match sig with
  | 1 => (25, 25, 2)
  | 2 => (20, 20, 3)
  | _ => (100, 90, 2)

/-- The chips of a window that match the secondary code at an offset. -/
def matches_ (code w : List Bool) (off : Nat) : Nat :=
  ((w.zipIdx).filter fun (b, i) => code.getD ((i + off) % code.length) false == b).length

/-- The offsets at which a window matches, up to a common inversion (R237). -/
def matchOffs (sig prn : Nat) (w : List Bool) : List Nat :=
  let code := pilotCode sig prn
  let (n, m, _) := syncRule sig
  (List.range n).filter fun o =>
    let k := matches_ code w o
    decide (m ≤ k) || decide (m ≤ n - k)

/-- The sync accumulators after a prompt (R237). -/
def Chan.syncStep (c : Chan) (sig prn : Nat) (sg : Bool) : Chan :=
  if sig = 0 then
    let pos := c.dumps % 20
    let e := if c.dumps ≠ 0 ∧ sg ≠ c.sign then c.edges.set pos (c.edges.getD pos 0 + 1) else c.edges
    { c with dumps := c.dumps + 1, sign := sg, edges := e }
  else
    let w := c.signs ++ [sg]
    let (n, _, _) := syncRule sig
    if w.length < n then { c with dumps := c.dumps + 1, sign := sg, signs := w }
    else
      let o := matchOffs sig prn w
      let both := if c.hits = 0 then o else o.filter fun k => c.offs.contains k
      let (offs, hits) := if both.isEmpty then (o, if o.isEmpty then 0 else 1) else (both, c.hits + 1)
      { c with dumps := c.dumps + 1, sign := sg, signs := [], offs := offs, hits := hits }

/-- The position that holds at least 80 % of the sign changes (R237). -/
def Chan.edgePos (c : Chan) : Option Nat :=
  let t := c.edges.foldl (· + ·) 0
  if 20 ≤ t then c.edges.findIdx? fun e => decide (t * 80 ≤ e * 100) else none

/-- Sync is found (R237). -/
def Chan.synced (c : Chan) (sig : Nat) : Bool :=
  if sig = 0 then c.edgePos.isSome else decide ((syncRule sig).2.2 ≤ c.hits)

/-- The ms since a bit or a secondary code began, at the dump that finds sync (R237). -/
def Chan.syncPhase (c : Chan) (sig : Nat) : Nat :=
  if sig = 0 then (c.dumps + 20 - c.edgePos.getD 0) % 20 else c.offs.headD 0 * cohMs sig

/-- A channel enters SYNC (R237): its data component's boundaries follow from its alignment; symbol 0 is the first to begin then, and
the multipath estimator starts. -/
def State.enterSync (s : State) (h : ChanId) : State :=
  let sig := s.chSig h
  let c := s.chan h
  let ph := c.syncPhase sig
  let n := symLen sig
  (s.chEnter h 3).onChan h fun x =>
    { x with phase := ph, symMs := -(((n - ph % n) % n : Nat) : Int), mpAcc := List.replicate 7 (0, 0), mpMs := 0,
             framing := .search, stars := 0, word := 0, navBad := 0 }

/-- A channel enters TRACK: ADR and the sync search restart, and an aided search is queued (R231, R237, R257). -/
def State.enterTrack (s : State) (h : ChanId) : State :=
  let sig := s.chSig h
  let aid := (s.chan h).aid
  let s1 := (s.chEnter h 2).onChan h fun c =>
    { c with aid := false, dumps := 0, sign := false, edges := List.replicate 20 0, signs := [], offs := [], hits := 0,
             lockAt := s.nut, adr := 0, halfOk := decide (sig ≠ 0), half := false }
  if aid && s.rBit Reg.harpCtrl 16 then
    (s1.addWin { who := .aided h, sig := sig + 2, prn := s.chPrn h, thr := s.rFld (Reg.harpSigThr (sig + 2)) 4 8,
                 n := s.rFld (Reg.harpSigSpc2 (sig + 2)) 0 4, peak := none, centre := { pos := 0, dopp := 0 },
                 step := (binHz (sig + 2) * 32768 : Nat), mu := (0, 0), votes := [], tries := 0 }).strumNext
  else s1

/-! ### Dumps -/

/-- A timer of a condition: it starts on the dump that finds the condition and ends on the one that does not (R236). -/
def timerOf (holds : Bool) (t : Option Nat) (pos : Nat) : Option Nat := if holds then some (t.getD pos) else none

/-- A complex value negated where `b`. -/
def negIf (b : Bool) (c : Int × Int) : Int × Int := if b then (-c.1, -c.2) else c

/-- The multipath accumulators after a dump in SYNC, over 1 s of dumps (R242): the correlators, as the carrier NCO rotated them, stripped of the data sign by
the sign of the prompt's I. -/
def Chan.accumulate (c : Chan) (y : Vector (Int × Int) 7) (ms : Nat) : Chan :=
  let neg := decide ((y.get 3).1 < 0)
  if 1000 ≤ c.mpMs then c
  else { c with mpAcc := c.mpAcc.zipWith (fun a b => (a.1 + (negIf neg b).1, a.2 + (negIf neg b).2)) y.toList, mpMs := c.mpMs + ms }

/-- The millisecond counts after `ms` milliseconds of signal (R237, R256, R263). -/
def Chan.countMs (c : Chan) (ms : Nat) : Chan :=
  { c with own := (c.own + ms) % 2 ^ 30, tot := (c.tot + ms) % 604800000, phase := (c.phase + ms) % 100, symMs := c.symMs + (ms : Nat) }

/-- The side peak of E1 (R239): after 20 dumps in a row with a larger outer correlator the code NCO moves by 2D toward the larger of the
two, a free one where they are equal, and CODE_JUMP is set. -/
def State.sideStep (s : State) (h : ChanId) (y : Vector (Int × Int) 7) : State :=
  let sig := s.chSig h
  let lo := mag2 (y.get 0)
  let hi := mag2 (y.get 6)
  let n := if sig = 1 ∧ mag2 (y.get 3) < max lo hi then (s.chan h).side + 1 else 0
  if n = 20 then
    let (f, s1) := s.free 1
    let later := if lo = hi then f == 1 else decide (lo < hi)
    let d : Int := (s.rFld (Reg.harpSigSpc2 sig) 12 8 : Nat) * 2 ^ 30
    (s1.onChan h fun c => { c with side := 0, pos := samplePos c.pos (if later then d else -d) }).setBit (Reg.harpChStat h) 14 true
  else s.onChan h fun c => { c with side := n }

/-- A dump taken in (R233 to R239): the loops, PLI and C/N0, the timers, the counts toward TRACK, sync and the multipath accumulators,
ADR (−1 cycle for each cycle of Doppler, R257) and the milliseconds of signal. -/
def State.dumpIn (s : State) (h : ChanId) (raw : Dump) : State :=
  let sig := s.chSig h
  let st := s.chState h
  let d := if s.hears sig then raw else Dump.zero
  let y := trackingOf d sig
  let c := s.chan h
  let ms := s.dumpMs h
  let gap := s.dumpGap h
  let ((dopp, rate), move) := s.loops h (trackingOf c.corr sig) y
  let pos := samplePos (s.dumpEnd h) move
  let (r, s0) := s.pliRatio (y.get 3)
  let plis := (r :: c.plis).take 20
  let lock := pliAtLeast plis (s.rFld (Reg.harpSigSpc2 sig) 4 8)
  let powers := (mag2 (y.get 3) :: (if c.powMs = ms then c.powers else [])).take (1000 / ms)
  let cn0 := momentCn0 ms powers
  let c1 := { c with
    dopp := dopp, rate := rate, nco := dopp + s.bandOffset sig, pos := pos, corr := d,
    sym := negIf (st = 3 ∧ ms = 1 ∧ dataChip sig (c.phase)) (d.data.get 3),
    adr := c.adr + c.dopp * sampleDiff pos c.pos, plis := plis, powers := powers, powMs := ms,
    good := if st = 1 ∧ fllSmall sig (crossDot ((trackingOf c.corr sig).get 3) (y.get 3)) ∧ lock then c.good + 1 else 0,
    pliLow := timerOf (decide (st = 2 ∨ st = 3) && !lock) c.pliLow pos,
    cn0Low := timerOf (decide (cn0 < s.rFld Reg.harpCn0Lost 0 10)) c.cn0Low pos }
  let c2 := c1.countMs (gap + ms)
  let c3 := if st = 2 then c2.syncStep sig (s.chPrn h) (decide (0 ≤ (y.get 3).1)) else if st = 3 then c2.accumulate y ms else c2
  let s1 := (s0.onChan h fun _ => c3).setReg (Reg.harpChDopp h) (BitVec.ofInt 20 (roundHaz dopp 4096))
  ((s1.setBit (Reg.harpChStat h) 16 lock).setFld (Reg.harpChStat h) 4 10 cn0).sideStep h y

/-- The advance of a channel after a dump, where no timer is due (R235, R236). -/
def State.advance (s : State) (h : ChanId) : State :=
  let st := s.chState h
  if s.pullDue h || s.lolDue h || s.pllDue h then s
  else if st = 1 ∧ 20 ≤ (s.chan h).good then s.enterTrack h
  else if st = 2 ∧ (s.chan h).synced (s.chSig h) then s.enterSync h
  else s

/-! ### The multipath estimator (R242) -/

/-- Σ a × b over a list of real weights and complex values. -/
def dotC : List Int → List (Int × Int) → Int × Int
  | w :: ws, y :: ys => let r := dotC ws ys; (w * y.1 + r.1, w * y.2 + r.2)
  | _, _ => (0, 0)

/-- Σ a × b. -/
def dotR (a b : List Int) : Int := (a.zipWith (· * ·) b).foldl (· + ·) 0

/-- A fit of one or two paths: τ0, τ1 (0 for one path), a0 and a1 over `den`, and what it takes off the residual as gain / den; den is
not negative. -/
structure PathFit where
  tau0 : Int
  tau1 : Int
  a0   : Int × Int
  a1   : Int × Int
  gain : Int
  den  : Int
  deriving DecidableEq, Repr

/-- The least-squares fit of one path at τ0: a0 = p / A, and it takes |p|² / A off the residual. -/
def fitOne (c : Int → Int) (xs : List Int) (ys : List (Int × Int)) (tau0 : Int) : PathFit :=
  let w := xs.map fun x => c (x - tau0)
  let p := dotC w ys
  { tau0 := tau0, tau1 := 0, a0 := p, a1 := (0, 0), gain := (mag2 p : Nat), den := dotR w w }

/-- The least-squares fit of two paths at τ0 and τ0 + τ1 by its normal equations, which are real. -/
def fitTwo (c : Int → Int) (xs : List Int) (ys : List (Int × Int)) (tau0 tau1 : Int) : PathFit :=
  let w := xs.map fun x => c (x - tau0)
  let v := xs.map fun x => c (x - tau0 - tau1)
  let a := dotR w w
  let b := dotR w v
  let d := dotR v v
  let p := dotC w ys
  let q := dotC v ys
  { tau0 := tau0, tau1 := tau1, a0 := (d * p.1 - b * q.1, d * p.2 - b * q.2), a1 := (a * q.1 - b * p.1, a * q.2 - b * p.2),
    gain := d * (mag2 p : Nat) - 2 * b * (p.1 * q.1 + p.2 * q.2) + a * (mag2 q : Nat), den := a * d - b * b }

/-- The fit with the smaller residual, the earlier where they are equal; one whose equations have no solution is passed over. -/
def betterFit (m : Option PathFit) (f : PathFit) : Option PathFit :=
  if f.den ≤ 0 then m
  else
    match m with
    | some g => if g.gain * f.den < f.gain * g.den then some f else m
    | none => some f

/-- τ0 over ±δ and τ1 over 10 to 720, in steps of 1/480 chip (R242). -/
def searchOne (c : Int → Int) (xs : List Int) (ys : List (Int × Int)) (delta : Nat) : Option PathFit :=
  (List.range (2 * delta + 1)).foldl (fun m i => betterFit m (fitOne c xs ys ((i : Int) - delta))) none
/-- The best two-path fit. -/
def searchTwo (c : Int → Int) (xs : List Int) (ys : List (Int × Int)) (delta : Nat) : Option PathFit :=
  (List.range (2 * delta + 1)).foldl (fun m i =>
    (List.range 711).foldl (fun n k => betterFit n (fitTwo c xs ys ((i : Int) - delta) ((k + 10 : Nat) : Int))) m) none

/-- The estimate (R242): the two-path fit where its residual lies below half the single-path residual, else the single path. -/
def bestPath (c : Int → Int) (xs : List Int) (ys : List (Int × Int)) (delta : Nat) : Option PathFit :=
  let y : Int := (ys.map fun v => (mag2 v : Int)).foldl (· + ·) 0
  match searchOne c xs ys delta, searchTwo c xs ys delta with
  | some f, some g =>
    -- 2 (Y − g) < Y − f, over the positive denominators
    if 2 * (y * g.den - g.gain) * f.den < (y * f.den - f.gain) * g.den then some g else some f
  | m, _ => m

/-- 2³² × tan(2π k / 256) for k = 1 to 32. -/
def tanTable : List Nat :=
  [105435529, 210998213, 316815821, 423017356, 529733691, 637098215, 745247522, 854322113, 964467159, 1075833302, 1188577525,
   1302864085, 1418865542, 1536763871, 1656751707, 1779033704] ++
  [1903828065, 2031368245, 2161904859, 2295707848, 2433068920, 2574304328, 2719758045, 2869805398, 3024857252, 3185364841, 3351825376,
   3524788567, 3704864268, 3892731450, 4089148798, 4294967296]

/-- The whole steps of 2π/256 in an angle of the first half quadrant, y ≤ x. -/
def octantSteps (x y : Nat) : Nat := (tanTable.filter fun t => decide (t * x ≤ y * 4294967296)).length

/-- arg(z) in 2π/256, rounded down or up, modulo 256 (R243). -/
def argSteps (z : Int × Int) (up : Bool) : Nat :=
  let x := z.1.natAbs
  let y := z.2.natAbs
  let o := if y ≤ x then octantSteps x y else 64 - octantSteps y x
  let exact := decide (x = 0 ∨ y = 0 ∨ x = y)
  -- the steps below and above the angle in the first quadrant
  let lo := if exact ∨ y ≤ x then o else o - 1
  let hi := if exact then o else lo + 1
  let lo' := if 0 ≤ z.1 then (if 0 ≤ z.2 then lo else 256 - hi) else (if 0 ≤ z.2 then 128 - hi else 128 + lo)
  (if up && !exact then lo' + 1 else lo') % 256

/-- |a1 / a0| in 1/256, rounded down or up, saturated at 255 (R243). -/
def ampSteps (a0 a1 : Int × Int) (up : Bool) : Nat :=
  let n := mag2 a1 * 65536
  let d := mag2 a0
  if d = 0 then 255
  else
    let r := natRoot 8 (n / d) 0
    min 255 (if up && decide (r * r * d < n) then r + 1 else r)

end Sys2Proof.Machine
end

