-- ==== Sys2Proof/Machine/HarpNav.lean ====
section
/-! DEFINITION. Epochs and their records (R250 to R259, R264), navigation data: checks, framing and entries (R260 to R262), and the time
of week (R263, R265). -/

namespace Sys2Proof.Machine

/-! ### Epochs -/

/-- N_ant of a signal (R259). -/
def State.antNut (s : State) (ne : Nut) (g : Nat) : Nut :=
  ne - BitVec.ofInt 80 (roundHaz ((((s.regN Reg.harpCable 2 : Nat) : Int) + (s.reg (Reg.harpBdly g)).toInt) * 65536) 1000)

/-- A HARP_EPOCH firing, taken at the end of its tick (R250, R251, R253): ignored with the harp off, ignored and counted less than 20 ms
after the last, else every channel in TRACK or SYNC latches its state. -/
def State.harpEpoch (s : State) : State :=
  if !s.harpOn then s
  else
    let fast := match s.harp.lastEpoch with
      | some t => decide ((s.nut - t).toNat < 8000000 * 163840)
      | none => false
    if fast then (s.addSat Reg.harpEpochFast 1).orReg Reg.harpMcause 0x20000
    else
      let live := (List.finRange 96).filter fun (h : ChanId) => s.mapValid && s.inTrack h
      let (se, s1) := s.epochSample s.nut
      let e : Epoch :=
        { ne := s.nut, valid := s.mapValid, se := se, res := s.reg Reg.harpMapRes,
          ants := (List.range 4).map (s.antNut s.nut), chans := live.map s.latchOf }
      s1.onHarp fun v => { v with epoch := some e, lastEpoch := some s.nut }

/-- The harp at the end of a tick (R250): an epoch that fired on it is placed by the map then in force. -/
def State.harpTick (s : State) : State :=
  if s.harp.epochDue then (s.onHarp fun v => { v with epochDue := false }).harpEpoch else s

/-- 2³⁰: the units of a millisecond in TOT (R255). -/
def msUnits : Nat := 2 ^ 30

/-- The signal's time from the end of a latched channel's last dump to s_e, in 2⁻³⁰ ms (R250, R256). -/
def Latched.units (l : Latched) (se : Nat) : Int :=
  signalTime (fld l.cfg 18 2) l.chan.dopp (sampleDiff se l.chan.pos)

/-- A latched channel's own time of week at the epoch in 2⁻³⁰ ms. -/
def Latched.week (l : Latched) (se : Nat) : Int := ((l.chan.tot * msUnits : Nat) : Int) + l.units se

/-- A channel without a time of week takes its milliseconds from its partner (R264): the ms that places its TOT within 0.5 ms
of the partner's, the bias B of the lower band removed. -/
def State.totFrom (s : State) (e : Epoch) (l : Latched) : Latched :=
  let se := e.se.toNat
  if l.chan.totSrc ≠ 0 || !bitOf l.cfg 7 then l
  else
    match e.chans.find? fun q => q.h.val == fld l.cfg 0 7 with
    | some q =>
      if q.chan.totSrc = 0 then l
      else
        let b := roundHaz ((s.reg Reg.harpLbBias).toInt * (msUnits : Nat)) 1000000
        let near := if lowerBand (fld l.cfg 18 2) then q.week se - b else q.week se + b
        let m := roundHaz (near - l.units se) (msUnits : Nat)
        { l with chan := { l.chan with tot := (m % 604800000).toNat, totSrc := 2 } }
    | none => l

/-- TAU0 / f_chip in 2⁻³⁰ ms (R243, R256). -/
def tauUnits (sig : Nat) (mp0 : Word) : Int :=
  roundHaz (sfld mp0 8 10 * (msUnits : Nat)) ((480 * (if lowerBand sig then 10230 else 1023) : Nat) : Int)

/-- TOT at the epoch, TOT_MS and TOT_FRAC in one 60-bit value, and whether it carries the correction of R256. -/
def Latched.totAt (l : Latched) (se : Nat) : Nat × Bool :=
  let mpc := bitOf l.cfg 8 && bitOf l.mp0 19
  let corr := if mpc then tauUnits (fld l.cfg 18 2) l.mp0 else 0
  let v := if l.chan.totSrc = 0 then
      (((l.chan.own * msUnits : Nat) : Int) + l.units se - corr) % ((2 ^ 30 * msUnits : Nat) : Int)
    else (l.week se - corr) % ((604800000 * msUnits : Nat) : Int)
  (v.toNat, mpc)

/-- ADR at the epoch in 2⁻¹⁶ cycle (R257): minus the Doppler's cycles over the samples since it restarted, and the half cycle. -/
def Latched.adrAt (l : Latched) (se : Nat) : W60 :=
  let acc := l.chan.adr + l.chan.dopp * sampleDiff se l.chan.pos
  BitVec.ofInt 60 (roundHaz (-acc) (61380000 * 4294967296)) + (if l.chan.half then 0x8000 else 0)

/-- A channel record (R255). -/
def Latched.record (l : Latched) (ne : Nut) (se : Nat) (left : Bool) : List Word :=
  let (tot, mpc) := l.totAt se
  let lockT := min 0xFFFFF ((ne - l.chan.lockAt).toNat / 655360000000)
  let w := fun (n : Nat) => (BitVec.ofNat 20 n : Word)
  toWords 3 tot ++ toWords 3 (l.adrAt se).toNat ++ toWords 2 (BitVec.ofInt 40 l.chan.dopp).toNat ++
    [w (fld l.cfg 10 10 * 1024 + l.h.val * 8 + fld l.stat 17 3),
     w (fld l.stat 4 10 * 1024 + l.chan.slips * 64 + l.chan.totSrc * 16 + l.chan.totErr.toNat * 8 + l.chan.halfOk.toNat * 4 +
        mpc.toNat * 2 + (bitOf l.stat 16).toNat),
     l.mp0, l.mp1, w lockT, w (fld l.cfg 0 8), 0, w (left.toNat * 2 ^ 19)]

/-- The words of an epoch's slot (R252, R254, R255) with the SEQ it ends with; the words behind the records are `rest`. -/
def Epoch.words (e : Epoch) (seq : Nat) (recs : List Word) (rest : List Word) : List Word :=
  let w := fun (n : Nat) => (BitVec.ofNat 20 n : Word)
  let res := (fld e.res 12 8) * 4096 + fld e.res 0 12
  [w seq, w (e.valid.toNat * 2 ^ 19 + e.chans.length)] ++ toWords 4 e.se.toNat ++ toWords 4 e.ne.toNat ++
    e.ants.flatMap (fun n => toWords 4 n.toNat) ++ [w res, 0, 0, 0, 0, 0] ++ recs ++ rest

/-- A harp event raised in every course that a mask names (R252, R262). -/
def State.harpEvent (s : State) (evt mask : Nat) : State :=
  foldFin 4 (fun c u => if mask.testBit c.val then u.raiseEvent c evt else u) s

/-! ### Checks and decoders (R260) -/

/-- The first `n` bits of a word of `w` bits, the top one first. -/
def topBits {w : Nat} (v : BitVec w) (n : Nat) : List Bool := (List.range n).map fun i => v.getMsbD i
/-- The number that bits write, the first on top. -/
def bitsNat (l : List Bool) : Nat := l.foldl (fun n b => 2 * n + b.toNat) 0
/-- Bits `lo` to `lo + len − 1` of a list as a number. -/
def bitsAt (l : List Bool) (lo len : Nat) : Nat := bitsNat ((l.drop lo).take len)

/-- The data bits that each of an LNAV word's six parity bits covers, and whether it takes in D29* (else D30*): IS-GPS-200's (32,26)
Hamming code, to which R260 refers (PRESUMED, log entry 184). -/
def lnavRows : List (Bool × List Nat) :=
  [(true, [1, 2, 3, 5, 6, 10, 11, 12, 13, 14, 17, 18, 20, 23]),
   (false, [2, 3, 4, 6, 7, 11, 12, 13, 14, 15, 18, 19, 21, 24]),
   (true, [1, 3, 4, 5, 7, 8, 12, 13, 14, 15, 16, 19, 20, 22]),
   (false, [2, 4, 5, 6, 8, 9, 13, 14, 15, 16, 17, 20, 21, 23]),
   (false, [1, 3, 5, 6, 7, 9, 10, 14, 15, 16, 17, 18, 21, 22, 24]),
   (true, [3, 5, 6, 8, 9, 10, 11, 13, 15, 19, 22, 23, 24])]

/-- The six parity bits of corrected data bits behind D29* and D30*. -/
def lnavParity (d29 d30 : Bool) (d : List Bool) : List Bool :=
  lnavRows.map fun r => r.2.foldl (fun b i => b ^^ d.getD (i - 1) false) (if r.1 then d29 else d30)

/-- One bit through a CRC-24Q register, x²⁴ + … = 0x1864CFB. -/
def crcStep (r : Nat) (b : Bool) : Nat :=
  let x := 2 * r ^^^ (if b then 0x1000000 else 0)
  if x.testBit 24 then x ^^^ 0x1864CFB else x

/-- CRC-24Q of bits (R260). -/
def crc24q (l : List Bool) : Nat := l.foldl crcStep 0

/-- The two symbols of a bit behind the six before it, newest first: the rate 1/2, K = 7 code of R260, G1 = 171 and G2 = 133 octal,
G2 inverted on Galileo (PRESUMED, log entry 184). -/
def convPair (galileo : Bool) (p : List Bool) (b : Bool) : List Bool :=
  let t := fun (i : Nat) => p.getD i false
  [b ^^ t 0 ^^ t 1 ^^ t 2 ^^ t 5, (b ^^ t 1 ^^ t 2 ^^ t 4 ^^ t 5) ^^ galileo]

/-- Bits re-encoded behind a coder's six bits. -/
def convEncode (galileo : Bool) : List Bool → List Bool → List Bool
  | _, [] => []
  | p, b :: l => convPair galileo p b ++ convEncode galileo ((b :: p).take 6) l

/-- Symbols in the order sent, from the coder's order: `n` columns of 8 rows, written by columns and read by rows (R260). -/
def interleave (n : Nat) (e : List Bool) : List Bool :=
  (List.range (8 * n)).map fun t => e.getD (t % n * 8 + t / n) false

/-- The places at which two lists differ. -/
def differ : List Bool → List Bool → Nat
  | a :: as, b :: bs => (if a = b then 0 else 1) + differ as bs
  | _, _ => 0

/-- What a channel's decoder makes of an item (R260, R262): its payload, whether its check passed, INV and ERR. -/
structure Decoded where
  payload : List Bool
  chkOk   : Bool
  inv     : Bool
  err     : Nat
  deriving DecidableEq, Repr

/-- An LNAV word (R260): d1 to d24 corrected by D30*, D25 to D30 as received. -/
def decodeLnav (stars : BitVec 2) (it : NavItem) : Decoded :=
  let raw := topBits it.bits 30
  let d29 := stars.getLsbD 1
  let d30 := stars.getLsbD 0
  let d := (raw.take 24).map fun b => b ^^ d30
  { payload := d ++ raw.drop 24, chkOk := raw.drop 24 == lnavParity d29 d30 d, inv := d30, err := 0 }

/-- A CNAV message (R260): the CRC over bits 1 to 276. -/
def decodeCnav (it : NavItem) : Decoded :=
  let b := topBits it.bits 300
  { payload := b, chkOk := crc24q (b.take 276) == bitsAt b 276 24, inv := false,
    err := differ (convEncode false (topBits it.start 6).reverse b) (topBits it.symbols 600) }

/-- An I/NAV page (R260, R261): two parts of 120 bits, each with its tail; the CRC over the even part's 114 bits and the odd part's first
82 (PRESUMED, log entry 184). A part alone has no check. -/
def decodeInav (it : NavItem) : Decoded :=
  let b := topBits it.bits (if it.unpaired then 120 else 240)
  let part := fun (l : List Bool) => interleave 30 (convEncode true [] l)
  let s := topBits it.symbols 480
  { payload := b,
    chkOk := !it.unpaired && crc24q (b.take 114 ++ (b.drop 120).take 82) == bitsAt b 202 24, inv := false,
    err := differ (part (b.take 120) ++ (if it.unpaired then [] else part (b.drop 120))) s }

/-- An F/NAV page (R260): the CRC over 214 bits. -/
def decodeFnav (it : NavItem) : Decoded :=
  let b := topBits it.bits 244
  { payload := b, chkOk := crc24q (b.take 214) == bitsAt b 214 24, inv := false,
    err := differ (interleave 61 (convEncode true [] b)) (topBits it.symbols 488) }

/-- An item decoded by its signal (R260). -/
def Chan.decodeNav (c : Chan) (sig : Nat) (it : NavItem) : Decoded :=
  match sig with
  | 0 => decodeLnav c.stars it
  | 1 => decodeInav it
  | 2 => decodeCnav it
  | _ => decodeFnav it

/-! ### Framing (R260, R261) -/

/-- The LNAV word after the one last received (R262). -/
def Chan.nextWord (c : Chan) : Nat := c.word % 10 + 1

/-- An LNAV word starts with the preamble or its inverse (R260). -/
def lnavPreamble (it : NavItem) : Bool := bitsNat (topBits it.bits 8) == 0x8B || bitsNat (topBits it.bits 8) == 0x74

/-- The sync patterns found in an item's places, first to last (R260): two for I/NAV's two parts, one where a part stands alone; one for
an F/NAV page. The patterns are PRESUMED from the Galileo OS SIS ICD (log entry 184). -/
def syncsOf (sig : Nat) (it : NavItem) : List Bool :=
  let v := it.sync.toNat
  if sig = 1 then
    if it.unpaired then [v % 1024 == 0b0101100000] else [v / 1024 % 1024 == 0b0101100000, v % 1024 == 0b0101100000]
  else [v / 4096 == 0b101101110000]

/-- The failures in a row after a list of checks, and whether they came to `n` in a row. -/
def runOfBad (n : Nat) : List Bool → Nat → Nat × Bool
  | [], k => (k, false)
  | b :: l, k =>
    if b then runOfBad n l 0
    else if k + 1 = n then (0, true)
    else runOfBad n l (k + 1)

/-- A channel that is framed takes checks into account: `n` failures in a row end framing (R261). -/
def Chan.checks (c : Chan) (n : Nat) (l : List Bool) : Chan :=
  let (k, lost) := runOfBad n l c.navBad
  { c with navBad := k, framing := if lost then .search else .found }

/-- A channel finds framing. -/
def Chan.foundFraming (c : Chan) : Chan := { c with framing := .found, navBad := 0 }

/-- A channel takes an item in (R257, R260, R261): its framing, the LNAV polarity, and whether the item is delivered. Two LNAV TLM words
in a row that fail the preamble or parity, three CNAV CRCs or two Galileo sync patterns end framing; the item that finds framing is
delivered, DESIGN CHOICE (log entry 185). -/
def Chan.takeNav (c : Chan) (sig : Nat) (it : NavItem) (d : Decoded) : Chan × Bool :=
  match sig with
  | 0 =>
    let c1 := { c with stars := BitVec.ofNat 2 (bitsAt (topBits it.bits 30) 28 2) }
    let tlm := lnavPreamble it && d.chkOk
    let wait : Framing := if tlm then .tlm (bitsNat (topBits it.bits 8) == 0x74) else .search
    match c.framing with
    | .found => ({ (if c.nextWord = 1 then c1.checks 2 [tlm] else c1) with word := c.nextWord }, true)
    | .tlm inverted =>
      if d.chkOk then
        ({ c1.foundFraming with word := 2, halfOk := true, half := if c.halfOk then c.half else inverted }, true)
      else ({ c1 with framing := wait }, false)
    | .search => ({ c1 with framing := wait }, false)
  | 2 =>
    if c.framing = .found then (c.checks 3 [d.chkOk], true)
    else if bitsNat (topBits it.bits 8) == 0x8B && d.chkOk then (c.foundFraming, true)
    else (c, false)
  | _ =>
    let s := syncsOf sig it
    let both := if sig = 1 then s == [true, true] else s == [true] && it.sync.toNat % 4096 == 0b101101110000
    if c.framing = .found then (c.checks 2 s, true)
    else if both then (c.foundFraming, true)
    else (c, false)

/-! ### Entries and the time of week -/

/-- KIND of a signal's navigation data (R260). -/
def navKind (sig : Nat) : Nat := match sig with | 0 => 0 | 2 => 1 | 1 => 2 | _ => 3

/-- The 32 words of a navigation entry (R262). -/
def State.navWords (s : State) (h : ChanId) (it : NavItem) (d : Decoded) (seq : Nat) : List Word :=
  let sig := s.chSig h
  let w := fun (n : Nat) => (BitVec.ofNat 20 n : Word)
  let word := if sig = 0 then (s.chan h).word else 0
  toWords 15 (bitsNat d.payload * 2 ^ (300 - d.payload.length)) ++
    [0, w (navKind sig * 2 ^ 18 + sig * 2 ^ 16 + s.chPrn h * 256 + h.val),
     w (d.chkOk.toNat * 2 ^ 19 + d.inv.toNat * 2 ^ 18 + (sig == 1 && it.unpaired).toNat * 2 ^ 17 + word * 4096 + min 4095 d.err)] ++
    toWords 4 (s.nutOfSample it.si.toNat).toNat ++ toWords 2 it.symcnt.toNat ++ [0, 0, 0, 0, 0, 0, 0, w seq]

/-- The field of a time of week in an item that passed its check, in ms, and the data symbols from the item's first symbol to the instant
it holds at (R263): LNAV's HOW and CNAV at the next subframe and message; of Galileo the field's place by word or page type and its instant,
the start of the page, are PRESUMED from the ICD (log entry 184). -/
def towField (sig word : Nat) (p : List Bool) : Option (Nat × Nat) :=
  match sig with
  | 0 => if word = 2 then some (bitsAt p 0 17 * 6000, 270) else none
  | 2 => some (bitsAt p 20 17 * 6000, 600)
  | 1 =>
    let data := (p.drop 2).take 112 ++ (p.drop 122).take 16
    match bitsAt data 0 6 with
    | 5 => some (bitsAt data 85 20 * 1000, 0)
    | 6 => some (bitsAt data 105 20 * 1000, 0)
    | _ => none
  | _ =>
    match bitsAt p 0 6 with
    | 1 => some (bitsAt p 167 20 * 1000, 0)
    | 2 => some (bitsAt p 194 20 * 1000, 0)
    | 3 => some (bitsAt p 186 20 * 1000, 0)
    | 4 => some (bitsAt p 189 20 * 1000, 0)
    | _ => none

/-- The time of week of an item, in ms at the end of the channel's last dump: its reference instant is found by symbol count (R263). -/
def Chan.towNow (c : Chan) (sig : Nat) (it : NavItem) (d : Decoded) : Option Nat :=
  if !d.chkOk then none
  else
    (towField sig c.word d.payload).map fun f =>
      (((f.1 : Int) + c.symMs - ((it.symcnt.toNat + f.2) * symLen sig : Nat)) % 604800000).toNat

/-- A time of week that passed its check (R263, R265): it sets the count, or is compared with it. -/
def Chan.takeTow (c : Chan) (auto : Bool) (tow : Nat) : Chan × Bool :=
  if c.totSrc ≠ 1 then (if auto then { c with tot := tow, totSrc := 1, totErr := false, totOff := none } else c, false)
  else if c.tot = tow then ({ c with totErr := false, totOff := none }, false)
  else
    let off := (tow + 604800000 - c.tot) % 604800000
    if c.totOff = some off then ({ c with tot := tow, totErr := true, totOff := none }, true)
    else ({ c with totErr := true, totOff := some off }, true)

/-- The time of week of an item taken by its channel (R263, R265). -/
def State.navTow (s : State) (h : ChanId) (it : NavItem) (d : Decoded) : State :=
  match (s.chan h).towNow (s.chSig h) it d with
  | some t =>
    let (c, bad) := (s.chan h).takeTow (s.rBit Reg.harpNavCtrl 15) t
    let s1 := s.onChan h fun _ => c
    if bad then s1.orReg Reg.harpMcause 0x10000 else s1
  | none => s

end Sys2Proof.Machine
end

