-- ==== Sys2Proof/Machine/Harp.lean ====
section
/-! DEFINITION. Commands of the harp (R216 to R272). -/

namespace Sys2Proof.Machine

/-! ### Clock, band statistics and the map -/

/-- HARP_CLK_WINDOW (R219, R225): at the end of a window of 2¹⁹ ticks, by the window timing of R91, a count within ±16 of nominal sets
CLK_OK; any other clears it and sets CLK_LOS. -/
def execHarpClkWindow (n : Nat) (s : State) : Host.Outcome State Fault Refusal :=
  .next (
    if s.harpOn && s.nutRun && s.nut.toNat % (524288 * 163840) == 0 && s.harp.clkWin != some s.nut then
      let s1 := s.onHarp fun v => { v with clkWin := some s.nut }
      if 80436 ≤ n ∧ n ≤ 80468 then s1.clkRise else s1.clkFall.orReg Reg.harpCause 0x80000
    else s)

/-- HARP_CLK_TIMEOUT (R219, R225). -/
def execHarpClkTimeout (s : State) : Host.Outcome State Fault Refusal :=
  .next (if s.harpOn then s.clkFall.orReg Reg.harpCause 0x80000 else s)

/-- The samples of a window: their number, those with code −8 or +7 on either bus, and the sum of the squares of their values
(R217, R220). -/
def windowSums (swap : Bool) (runs : List SampleRun) : Nat × Nat × Nat :=
  runs.foldl (fun m r =>
    let (i, q) := sampleOf swap r
    let edge := i == -15 || i == 15 || q == -15 || q == 15
    (m.1 + r.n, m.2.1 + (if edge then r.n else 0), m.2.2 + r.n * mag2 (i, q))) (0, 0, 0)

/-- CLIP and RMS of a window of 2²⁰ samples (R220): the samples per 1,024 that clip, and half the RMS of the values in 1/64 code, both
rounded down and saturating. -/
def bandStat (swap : Bool) (runs : List SampleRun) : Nat :=
  let (_, clip, sq) := windowSums swap runs
  min 1023 (clip / 1024) * 1024 + min 1023 (natRoot 16 (sq / 2048) 0)

/-- BAND_STAT_WINDOW (R217, R218, R220): at the end of a window of 2²⁰ samples, which lies within the latest marker's, CLIP and RMS of a
band are written, once. With LB_EN = 0 the lower-band buses are ignored (R244). -/
def execBandStatWindow (upper : Bool) (runs : List SampleRun) (si : BitVec 48) (s : State) : Host.Outcome State Fault Refusal :=
  .next (
    let v := s.harp
    if s.mayPass && (upper || s.rBit Reg.harpCtrl 16) && (windowSums false runs).1 == 2 ^ 20 && si.toNat % 2 ^ 20 == 0 &&
        decide ((si.toNat + 2 ^ 48 - v.si) % 2 ^ 48 < 1024) && (if upper then v.statU else v.statL) != some si.toNat then
      (s.onHarp fun x => if upper then { x with statU := some si.toNat } else { x with statL := some si.toNat }).setReg
        (if upper then Reg.harpBstatu else Reg.harpBstatl)
        (BitVec.ofNat 20 (bandStat (s.rBit Reg.harpCtrl (if upper then 18 else 17)) runs))
    else s)

/-- HARP_MARKER (R221, R222): SI stands at 0 at the first marker after CLK_OK rose and advances by 1,024 at each other; the marker is
stamped on its arrival tick less the crossing delay. -/
def execHarpMarker (s : State) : Host.Outcome State Fault Refusal :=
  .next (
    if s.mayPass then
      s.onHarp fun v =>
        { v with
          si := if v.fresh then v.si else (v.si + 1024) % 2 ^ 48, fresh := false, markN := v.markN + 1,
          marks := if s.isVoid 48 then [] else ((s.nut - Config.markerDelay) :: v.marks).take 65536 }
    else s)

/-- MAP_FIT (R222): every 4,096 markers the map is fitted over the last 65,536, its fields change together, and MAP_VALID
follows; a reacquisition that waits for the map may start (R225). -/
def execMapFit (s : State) : Host.Outcome State Fault Refusal :=
  .next (
    let v := s.harp
    match v.marks with
    | ref :: _ =>
      if s.mayPass && decide (4096 ≤ v.markN) && v.marks.length == 65536 then
        let m := fitLine 65536 (fitSums ref 33554432 v.marks { sx := 0, sxx := 0, sy := 0, sxy := 0, syy := 0 })
        let seq := (s.rFld Reg.harpMapRes 12 8 + 1) % 256
        let s1 := (s.setRegN Reg.harpMapSi 3 ((v.si + 2 ^ 48 - 33554432) % 2 ^ 48)).setRegN Reg.harpMapNut 4
          (ref + BitVec.ofInt 80 ((2 * m.a + m.den) / (2 * m.den))).toNat
        let s2 := s1.setRegN Reg.harpMapPer 3 (BitVec.ofInt 60 (roundHaz (m.b * 4294967296) m.den)).toNat
        let s3 := s2.setReg Reg.harpMapRes (BitVec.ofNat 20 (seq * 4096 + min 4095 m.rmsPs))
        ((s3.onHarp fun x => { x with markN := 0 }).setMapValid (m.perOk && m.resOk)).strumNext
      else s
    | [] => s)

/-- HARP_SI_READ (R221): a host read of HARP_SI0 captures SI, `off` samples after the latest marker while HARP_CLK runs. -/
def execHarpSiRead (off : BitVec 10) (s : State) : Host.Outcome State Fault Refusal :=
  .next (
    if s.hostReads Reg.harpSi then
      let si := s.siAt (if s.clkOk then off.toNat else 0)
      (s.setRegN Reg.harpSi 3 si).latch Reg.harpSi 3 si
    else s)

/-- HARP_CTRL_WRITE (R244). -/
def execHarpCtrlWrite (v : Word) (s : State) : Host.Outcome State Fault Refusal :=
  .next (s.hostWrite Reg.harpCtrl fun t => t.harpCtrl v)

/-! ### Searches -/

/-- SEARCH_COMMIT (R226, R232). -/
def execSearchCommit (v : Word) (s : State) : Host.Outcome State Fault Refusal :=
  .next (s.hostWrite (Reg.harpSreq + 16) fun t => t.searchWrite v)

/-- SEARCH_ABORT (R232). -/
def execSearchAbort (s : State) : Host.Outcome State Fault Refusal :=
  .next (s.hostWrite Reg.harpSqCmd fun t => t.sqCmd true false)

/-- SEARCH_FLUSH (R232). -/
def execSearchFlush (s : State) : Host.Outcome State Fault Refusal :=
  .next (s.hostWrite Reg.harpSqCmd fun t => t.sqCmd false true)

/-- STRUM_PASS_END (R227 to R229): the pass of the running search ends, S of its cells in order. One that detects starts a verification
around its lowest best cell, with μ of this pass; one that does not lets the search go on. -/
def execStrumPassEnd (ss : List Nat) (s : State) : Host.Outcome State Fault Refusal :=
  .next (
    match s.harp.run with
    | some x =>
      let q := x.req
      let si := s.harp.passSi
      if s.harp.mainOn && s.mayPass && s.passDone && ss.length == q.passCells x.pass then
        let (j, sMax) := bestCell ss
        let first := 8192 * x.pass
        let (mu, s0) := s.muOf q.codes (!q.window) first (first + j) ss
        let y := { x with done := x.done + 1 }
        if s.hears q.sig && passes q.thr sMax mu then
          let s1 := s0.onHarp fun v => { v with run := some { y with verify := true }, mainOn := false }
          (s1.addWin
            { who := .search q.seq, sig := q.sig, prn := q.prn, thr := q.thr, n := q.n, peak := some (q.cell si (first + j)),
              centre := { pos := 0, dopp := 0 }, step := (binHz q.sig * 65536 : Nat), mu := mu, votes := [], tries := 0 }).strumFrom
            s.harp.passEnd
        else (s0.onHarp fun v => { v with run := some y }).searchOn.strumFrom s.harp.passEnd
      else s
    | none => s)

/-- SMALL_PASS_END (R229 to R231, R240): each window of the pass is judged by S of its cells. -/
def execSmallPassEnd (ws : List (List Nat)) (s : State) : Host.Outcome State Fault Refusal :=
  .next (
    if s.mayPass && !s.harp.small.isEmpty && s.passDone && windowsFit s.harp.small ws then
      ((s.onHarp fun v => { v with small := [] }).judgeAll s.harp.small ws).strumFrom s.harp.passEnd
    else s)

/-! ### Channels -/

/-- CHANNEL_DUMP (R233 to R239): the dump whose samples have come is taken in, and the channel advances to TRACK or SYNC. A timer that
was due on the dump before is taken first (R236); a timer due on this one keeps the channel from advancing. -/
def execChannelDump (h : ChanId) (d : Dump) (s : State) : Host.Outcome State Fault Refusal :=
  .next (
    if s.mayPass && s.dumpReady h && decide (1 ≤ s.chState h ∧ s.chState h ≤ 3) then
      let s0 := s.takeTimers h
      if s0.chState h = 4 then s0.relatch h
      else ((s0.dumpIn h d).advance h).relatch h
    else s)

/-- PULLIN_TIMEOUT (R235): HARP_PULL_TMO expired on the channel's last dump. -/
def execPullinTimeout (h : ChanId) (s : State) : Host.Outcome State Fault Refusal :=
  .next (if s.pullDue h then (s.chEnter h 4).relatch h else s)

/-- PLL_TIMEOUT (R235, R236): HARP_PLL_TMO expired on the channel's last dump, and no expiry that leads to LOST with it. -/
def execPllTimeout (h : ChanId) (s : State) : Host.Outcome State Fault Refusal :=
  .next (if s.pllDue h && !s.lolDue h then (s.chSlip h).relatch h else s)

/-- LOL_TIMEOUT (R235): HARP_LOL_TMO expired on the channel's last dump. -/
def execLolTimeout (h : ChanId) (s : State) : Host.Outcome State Fault Refusal :=
  .next (if s.lolDue h then (s.chEnter h 4).relatch h else s)

/-- REACQ_TIMEOUT (R235). -/
def execReacqTimeout (h : ChanId) (s : State) : Host.Outcome State Fault Refusal :=
  .next (
    if s.chState h = 4 ∧ s.msPassed (s.chan h).since (s.rFld Reg.harpReacqTmo 0 12 * 1000) then s.chEnter h 0 else s)

/-- A window waits or runs for the reacquisition of a channel. -/
def State.reacqWaits (s : State) (h : ChanId) : Bool := (s.harp.small ++ s.harp.wins).any fun w => w.who == .reacq h

/-- REACQ_QUEUE (R225, R240): each second a LOST channel with AUTO_REACQ queues a search of one small window. -/
def execReacqQueue (h : ChanId) (s : State) : Host.Outcome State Fault Refusal :=
  .next (
    if s.chState h = 4 ∧ s.rBit (Reg.harpChCfg h) 9 ∧ s.mayPass ∧ s.mapValid ∧ s.msPassed (s.chan h).lastReq 1000 ∧
        !s.reacqWaits h then
      let sig := s.chSig h
      let s1 := s.onChan h fun c => { c with lastReq := s.harp.si * 2 ^ 32 }
      (s1.addWin
        { who := .reacq h, sig := sig, prn := s.chPrn h, thr := s.rFld (Reg.harpSigThr sig) 4 8, n := s.rFld (Reg.harpSigSpc2 sig) 0 4,
          peak := none, centre := { pos := 0, dopp := 0 }, step := (binHz sig * 32768 : Nat), mu := (0, 0), votes := [],
          tries := 0 }).strumNext
    else s)

/-- CHANNEL_STOP (R235, R241). -/
def execChannelStop (h : ChanId) (s : State) : Host.Outcome State Fault Refusal :=
  .next (s.hostWrite (Reg.harpChCmd h) fun t => t.chStop h)

/-- The estimate's words, MP0 and MP1 (R243): VALID at C/N0 and a direct path positive on the prompt; a single path shows ALPHA 0, and
its TAU1 and THETA are free. -/
def State.mpWords (s : State) (h : ChanId) (f : PathFit) (r : MpFit) : Nat × Nat × State :=
  let two := f.tau1 != 0
  let valid := decide (0 < f.a0.1) && decide (s.rFld Reg.harpMpCn 0 10 ≤ s.rFld (Reg.harpChStat h) 4 10)
  let mp0 := valid.toNat * 2 ^ 19 + two.toNat * 2 ^ 18 + (BitVec.ofInt 10 f.tau0).toNat * 256
  if two then (mp0 + ampSteps f.a0 f.a1 r.alphaUp, f.tau1.toNat * 1024 + argSteps (f.a1.1 * f.a0.1 + f.a1.2 * f.a0.2, f.a1.2 * f.a0.1 - f.a1.1 * f.a0.2) r.thetaUp * 4, s)
  else
    let (v, t) := s.free 18
    (mp0, v.toNat * 4, t)

/-- MP_ESTIMATE (R242, R243): after 1 s of dumps in SYNC, the estimator fits the accumulated correlators and writes its outputs, and
accumulates anew. -/
def execMpEstimate (h : ChanId) (fit : MpFit) (s : State) : Host.Outcome State Fault Refusal :=
  .next (
    let c := s.chan h
    if s.mayPass && s.chState h == 3 && decide (1000 ≤ c.mpMs) then
      let sig := s.chSig h
      let s1 := s.onChan h fun x => { x with mpAcc := List.replicate 7 (0, 0), mpMs := 0 }
      match bestPath (Config.corrShape sig) (s.corrOffsets h) c.mpAcc (s.rFld (Reg.harpSigSpc sig) 4 8) with
      | some f =>
        let (mp0, mp1, s2) := s1.mpWords h f fit
        ((s2.setReg (Reg.harpChMp h) (BitVec.ofNat 20 mp0)).setReg (Reg.harpChMp1 h) (BitVec.ofNat 20 mp1)).relatch h
      | none => s1.setBit (Reg.harpChMp h) 19 false
    else s)

/-! ### Measurements and navigation data -/

/-- A channel's time of week as its record carries it, kept by the channel (R264). -/
def State.keepTot (s : State) (old new : Latched) : State :=
  if old.chan.totSrc = 0 ∧ new.chan.totSrc = 2 then
    s.onChan new.h fun c =>
      if c.totSrc = 0 then
        { c with tot := (new.chan.tot + (c.own + 2 ^ 30 - old.chan.own) % 2 ^ 30) % 604800000, totSrc := 2 }
      else c
  else s

/-- MEAS_RECORD_WRITE (R251, R252, R254, R255, R264): the record of the epoch that is due; what the harp writes behind its channel records
is `rest`, and free where that ends. -/
def execMeasRecordWrite (rest : List Word) (s : State) : Host.Outcome State Fault Refusal :=
  .next (
    match s.harp.epoch with
    | some e =>
      let se := e.se.toNat
      let new := e.chans.map (s.totFrom e)
      let s1 := (e.chans.zip new).foldl (fun u x => u.keepTot x.1 x.2) s
      let recs := new.flatMap fun l => l.record e.ne se (!s.inTrack l.h)
      let wr := s1.rFld Reg.harpMeasWr 0 16
      let seq := (wr + 1) % 65536
      let k := 2016 - recs.length
      let (f, s2) := s1.free (20 * (k - rest.length))
      let tail := rest.take k ++ toWords (k - rest.length) f.toNat
      let s3 := s2.onHarp fun v =>
        { v with epoch := none, mem := v.mem.writes (4096 + 2048 * (wr % 32)) (e.words seq recs tail) }
      ((s3.setReg Reg.harpMeasWr (BitVec.ofNat 20 seq)).orReg Reg.harpMcause 0x80000).harpEvent 8 (s3.rFld Reg.harpEvt 0 4)
    | none => s)

/-- NAV_ENTRY (R257, R260 to R265): a channel in SYNC whose signal is enabled decodes an item; it delivers the item once framed. -/
def execNavEntry (h : ChanId) (it : NavItem) (s : State) : Host.Outcome State Fault Refusal :=
  .next (
    let sig := s.chSig h
    if s.mayPass && s.chState h == 3 && s.rBit Reg.harpNavCtrl (16 + sig) then
      let d := (s.chan h).decodeNav sig it
      let (c, out) := (s.chan h).takeNav sig it d
      let s0 := s.onChan h fun _ => c
      if out then
        let wr := s.rFld Reg.harpNavWr 0 16
        let seq := (wr + 1) % 65536
        let s1 := s0.onHarp fun v => { v with mem := v.mem.writes (69632 + 32 * (wr % 2048)) (s0.navWords h it d seq) }
        let s2 := (s1.setReg Reg.harpNavWr (BitVec.ofNat 20 seq)).orReg Reg.harpMcause 0x40000
        (s2.navTow h it d).harpEvent 9 (s2.rFld Reg.harpEvt 4 4)
      else s0
    else s)

end Sys2Proof.Machine
end

