-- ==== Sys2Proof/Machine/Flags.lean ====
section
/-! DEFINITION. Conditions (R313) and the flag computations of the data path (R312, R347, R350). -/

namespace Sys2Proof.Machine

/-- COND (R313). -/
def condTrue (c : BitVec 4) (f : Flags) : Bool :=
  match c.toNat with
  | 0 => true
  | 1 => f.z
  | 2 => !f.z
  | 3 => f.c
  | 4 => !f.c
  | 5 => f.n
  | 6 => !f.n
  | 7 => f.c && !f.z
  | 8 => !f.c || f.z
  | 9 => f.n == f.v
  | 10 => f.n != f.v
  | 11 => !f.z && f.n == f.v
  | 12 => f.z || f.n != f.v
  | 13 => f.e
  | 14 => f.t
  | _ => f.l

/-- The top bit of a value of `n` bits. -/
def topBit (n v : Nat) : Bool := v.testBit (n - 1)

/-- Z and N of a result of `n` bits (R312). -/
def Flags.zn (f : Flags) (n v : Nat) : Flags := { f with z := v == 0, n := topBit n v }

/-- Z, N, C and V of the sum a + b + c of `n` bits (R312): V is signed overflow. -/
def Flags.sum (f : Flags) (n a b c : Nat) : Flags :=
  let v := (a + b + c) % 2 ^ n
  { f.zn n v with c := decide (2 ^ n ≤ a + b + c), v := topBit n a == topBit n b && topBit n a != topBit n v }

/-- The difference a − b − c modulo 2^n. -/
def subMod (n a b c : Nat) : Nat := (a + 2 ^ (n + 1) - b - c) % 2 ^ n

/-- Z, N, C and V of the difference a − b − c of `n` bits (R312): C is 1 where there was no borrow. -/
def Flags.diff (f : Flags) (n a b c : Nat) : Flags :=
  let v := subMod n a b c
  { f.zn n v with c := decide (b + c ≤ a), v := topBit n a != topBit n b && topBit n a != topBit n v }

/-- A value of `n` bits read as a signed number. -/
def signedOf (n v : Nat) : Int := if topBit n v then (v : Int) - (2 : Int) ^ n else v

/-- A signed number as a value of `n` bits. -/
def unsignedOf (n : Nat) (x : Int) : Nat := (x % (2 : Int) ^ n).toNat

/-- SHL: the result and C (R347). From n places on, the last of A's bits to leave is its lowest (DEDUCED,
notes/assumptions/31.md). -/
def shlOf (n a k : Nat) : Nat × Bool :=
  if k = 0 then (a, false)
  else if n ≤ k then (0, a.testBit 0)
  else (a <<< k % 2 ^ n, a.testBit (n - k))

/-- SHR: the result and C (R347). -/
def shrOf (n a k : Nat) : Nat × Bool :=
  if k = 0 then (a, false) else if n ≤ k then (0, topBit n a) else (a >>> k, a.testBit (k - 1))

/-- SAR: the result and C (R347). -/
def sarOf (n a k : Nat) : Nat × Bool :=
  if k = 0 then (a, false)
  else
    let j := min k n
    (unsignedOf n (signedOf n a / (2 : Int) ^ j), if n ≤ k then topBit n a else a.testBit (k - 1))

/-- ROL: the result (R346). -/
def rolOf (n a k : Nat) : Nat := ((a <<< (k % n)) ||| (a >>> (n - k % n))) % 2 ^ n

end Sys2Proof.Machine
end

