-- ==== Sys2Proof/Machine/SendOps.lean ====
section
/-! DEFINITION. Sends: the mode of a port (R89, R294, R295), link state (R275), completions (R292, R293, R296, R101), launch
plucks (R152, R153), the stamp spec and its fields (R95 to R100, R102), and the frame as it leaves. -/

namespace Sys2Proof.Machine

/-! ### Modes -/

/-- What a row of the mode table fixes (R89, R294, R295): its index, W, N0, K, F, G and the time of 8 octets in hundredths of a
nanosecond. -/
structure ModeRow where
  idx : Nat
  w   : Nat
  n0  : Nat
  k   : Nat
  f   : Nat
  gap : Nat
  oct : Nat
  deriving DecidableEq, Repr

/-- The row of a port's MODE and FEC (R89, R273). -/
def State.modeRow (s : State) (p : PortId) : ModeRow :=
  match s.rFld (Reg.prtCtrl p) 16 2, s.rFld (Reg.prtCtrl p) 14 2 with
  | 0, _ => { idx := 0, w := 10, n0 := 163840, k := 16, f := 0, gap := 1600, oct := 6400 }
  | 1, _ => { idx := 1, w := 64, n0 := 211200, k := 24, f := 24, gap := 640, oct := 640 }
  | _, 0 => { idx := 2, w := 64, n0 := 528000, k := 32, f := 48, gap := 256, oct := 256 }
  | _, 1 => { idx := 3, w := 64, n0 := 528000, k := 64, f := 48, gap := 376, oct := 256 }
  | _, _ => { idx := 4, w := 64, n0 := 528000, k := 112, f := 48, gap := 1792, oct := 256 }

/-- A timestamp point on the line (R85 to R87): the TDC code of the word edge E, the index i of its UI, and the index w_E of the word
that E captures or launches. -/
structure LineMark where
  code : Code
  ui   : Nat
  word : Nat
  deriving DecidableEq, Repr

/-- The timestamp point of a received frame (R85, R86): w_E lies K words behind the word that holds UI i. -/
def State.rxPoint (s : State) (p : PortId) (m : RxMark) : LineMark :=
  let i := (s.port p).rxUi + m.ui
  { code := m.code, ui := i, word := i / (s.modeRow p).w + (s.modeRow p).k }

/-- The timestamp point of a frame that enters the fill stage (R85, R87, R89): it leaves F words behind the word launched on E. -/
def State.txPoint (s : State) (p : PortId) (m : TxMark) : LineMark :=
  let w := (s.port p).txWord + m.word
  { code := m.code, ui := (s.modeRow p).w * (w + (s.modeRow p).f) + m.ui, word := w }

/-- The words of a fret window in use: the last completed count, else N0 (R91, R92). -/
def State.fretN (s : State) (p : PortId) (tx : Bool) : Nat :=
  if tx then (if s.rBit (Reg.fretStat p) 18 then (s.reg (Reg.fretTxcnt p)).toNat else (s.modeRow p).n0)
  else if s.rBit (Reg.fretStat p) 19 then (s.reg (Reg.fretRxcnt p)).toNat else (s.modeRow p).n0

/-- round_haz(n × U) in 2⁻¹⁶ ns, with U of R86 and R87. -/
def State.uiTime (s : State) (p : PortId) (tx : Bool) (n : Int) : Int :=
  roundHaz (n * (524288 * 163840)) ((s.modeRow p).w * s.fretN p tx : Nat)

/-- The receive line of a fret (R86). -/
def rxLine (p : PortId) : LineId := ⟨p.val, by omega⟩
/-- The transmit line of a fret (R87). -/
def txLine (p : PortId) : LineId := ⟨24 + p.val, by omega⟩

/-- A fret's nut replica (R39). -/
def State.fretReplica (s : State) (p : PortId) : Replica := s.replicas.get ⟨4 + p.val, by omega⟩
/-- A fret's replica serves. -/
def State.fretIn (s : State) (p : PortId) : Bool := (s.fretReplica p).fence == Fence.service
/-- The nut value that a fret stamps with: its replica's (R21, R39). -/
def State.fretNut (s : State) (p : PortId) : Nut := s.nut + (s.fretReplica p).dev

/-- The port runs: its group is on, EN is 1 and no port reset holds it (R274, R452, R472). -/
def State.portRuns (s : State) (p : PortId) : Bool :=
  s.powered (5 + p.val / 6) && s.rBit (Reg.prtCtrl p) 19 && !s.rBit (Reg.prtCtrl p) 18 && !(s.port p).held

/-! ### Completions -/

/-- A completion of a send with a status and nothing else (R323). -/
def doneOf (e : Send) (status late : Nat) (slot : Bool) : Done :=
  { at_ := 0, crypto := false, status := status, slot := slot, tag := BitVec.ofNat 12 e.tag.toNat, t := 0, tg := false,
    calw := false, perNom := false, gen := 0, late := late }

/-- A send ends with its one completion (R293); its event comes with SEND_COMPLETE. -/
def State.endSend (s : State) (e : Send) (d : Done) : State :=
  s.onCourse e.course fun c => { c with sent := c.sent ++ [{ send := e, d := d }] }

/-- A send ends with a status alone. -/
def State.endWith (s : State) (e : Send) (status : Nat) : State := s.endSend e (doneOf e status 0 false)

/-- A send cut off (R101). -/
def State.abortSend (s : State) (e : Send) : State :=
  ((s.endWith e 2).setBit (Reg.fretStat e.port) 13 true).addSat (Reg.fretAbortCnt e.port) 1

/-- Frames of the fill stage and the pipeline, fired and armed launch sends cut off: port reset, a mode change or a loss of
transmit lock (R101, R153). -/
def State.txAbort (s : State) (p : PortId) : State :=
  let x := s.port p
  let es := x.fill.map Filling.send ++ x.depart ++ x.stage ++ x.launch
  es.foldl (fun u e => u.abortSend e) (s.onPort p fun y => { y with fill := [], depart := [], stage := [], launch := [] })

/-- A loss of transmit lock (R92, R101): TX_VALID clears, and what is on its way is cut off. -/
def State.txLockLost (s : State) (p : PortId) : State := (s.txAbort p).setBit (Reg.fretStat p) 18 false

/-- The frames of a port's transmit queues complete LINK_DOWN (R274, R275). -/
def State.dropQueues (s : State) (p : PortId) : State :=
  let es := (s.port p).queues.toList.flatten
  es.foldl (fun u e => u.endWith e 6) (s.onPort p fun y => { y with queues := Vector.replicate 4 [] })

/-- LINK as R275 has it. -/
def State.linkCond (s : State) (p : PortId) : Bool :=
  let w := s.reg (Reg.prtStat p)
  bitOf w 18 && !bitOf w 17 && !(s.port p).fault && (!s.rBit (Reg.prtCtrl p) 13 || bitOf w 15)

/-- LINK brought up to its conditions: a change sets LINK_CHANGE, a fall ends the queued frames (R275). -/
def State.linkEval (s : State) (p : PortId) : State :=
  let new := s.linkCond p
  if new = s.rBit (Reg.prtStat p) 19 then s
  else
    let s1 := (s.setBit (Reg.prtStat p) 19 new).orReg (Reg.prtCause p) 0x80000
    if new then s1 else s1.dropQueues p

/-- Loss of PCS lock: RX_VALID clears, LINK follows (R92, R275). -/
def State.loseLock (s : State) (p : PortId) : State :=
  ((s.setBit (Reg.prtStat p) 18 false).setBit (Reg.fretStat p) 19 false).linkEval p

/-! ### Port reset (R274) -/

/-- A port reset starts: sends end, lock is lost, and the fret's status and counters return to their reset values
before they count what it cuts off (R101, R107, R153, R274, R275). Both crossings of the port are void (R465). The transmit word count
stands at 0 until the port leaves reset (R85). -/
def State.portReset (s : State) (p : PortId) : State :=
  let s0 := (s.voidX ⟨p.val, by omega⟩).voidX ⟨24 + p.val, by omega⟩
  let s1 := (s0.clearRegs (Reg.fretStat p) (Reg.fretDrx p)).clearRegs (Reg.fretSpecCnt p) (Reg.fretAbortCnt p + 4)
  let s2 := ((s1.txAbort p).dropQueues p).setBit (Reg.prtStat p) 15 false
  ((s2.setBit (Reg.prtStat p) 17 false).onPort p fun y => { y with fault := false, txWord := 0 }).loseLock p

/-- A word for PRT_CTRL that R273 refuses. -/
def prtCtrlBad (v : Word) : Bool :=
  let m := fld v 16 2
  let f := fld v 14 2
  m == 3 || f == 3 || (f != 0 && m != 2) || (bitOf v 13 && m != 0)

/-- A fret's replica back to the state of a failed check, to be reloaded (R39), when the host ends a hard fence (R452). -/
def State.unhold (s : State) (p : PortId) : State :=
  if (s.port p).held then
    let i : ReplicaId := ⟨4 + p.val, by omega⟩
    let s1 := s.onPort p fun y => { y with held := false }
    { s1 with replicas := vset s1.replicas i { s1.replicas.get i with fence := .fenced, fails := [] } }
  else s

/-- A write of PRT_CTRL (R273, R274): refused, or the new word, with a port reset where RST is 1 or EN, MODE, FEC, AN or LPBK
change. RST written 0 after 1 ends a hard fence (R452). -/
def State.prtCtrlWrite (s : State) (p : PortId) (v : Word) : State :=
  let old := s.reg (Reg.prtCtrl p)
  let err := if bitOf v 11 then false else bitOf old 11
  if prtCtrlBad v then s.setBit (Reg.prtCtrl p) 11 true
  else
    let s1 := s.setReg (Reg.prtCtrl p) (putBit (v &&& 0xFF000) 11 err)
    let s2 := if bitOf old 18 && !bitOf v 18 then s1.unhold p else s1
    if bitOf v 18 || (old &&& 0xBF000) ≠ (v &&& 0xBF000) then s2.portReset p else s2

/-! ### Queues and launch plucks -/

/-- A frame's length on the wire without FCS: padded to 60 bytes (R293). -/
def Send.wireLen (e : Send) : Nat := max 60 e.len

/-- A send refused at issue, with its status (R275, R292, R293): LEN_ERR, LINK_DOWN, and for a queued kind QFULL. The order is
the model's (DEDUCED, notes/assumptions/30.md). -/
def State.sendRefused (s : State) (e : Send) : Option Nat :=
  if 2044 < e.len || s.rFld (Reg.prtMaxlen e.port) 0 12 < e.len + 4 then some 8
  else if !s.rBit (Reg.prtStat e.port) 19 then some 6
  else if e.kind ≠ 2 && 32 ≤ ((s.port e.port).queues.get e.course).length then some 5
  else none

/-- The firing tick of a launch pluck, as an integer: the first tick at or after X − 256 ticks (R152). -/
def launchTick (x : Nut) : Int := -((256 * 163840 - (x.toNat : Int)) / 163840 * 163840)

/-- A launch-time send arms a launch pluck, or completes LATE or FULL (R152, R153). -/
def State.armLaunch (s : State) (e : Send) : State :=
  let f := launchTick e.target
  if f < s.nut.toNat then s.endSend e (doneOf e 3 ((s.nut.toNat - f) / 163840).toNat false)
  else if 64 ≤ (s.port e.port).launch.length then s.endWith e 4
  else s.onPort e.port fun y => { y with launch := y.launch ++ [e] }

/-- A send is issued (R292, R293, R357, R358): a slot with a send outstanding gives SLOT_BUSY; else the slot has one from here
on. -/
def State.startSend (s : State) (e : Send) : State :=
  if (s.course e.course).sending.contains e.slot then s.endWith e 9
  else
    let s1 := s.onCourse e.course fun c => { c with sending := e.slot :: c.sending }
    match s1.sendRefused e with
    | some st => s1.endWith e st
    | none =>
      if e.kind = 2 then s1.armLaunch e
      else s1.onPort e.port fun y => { y with queues := vset y.queues e.course (y.queues.get e.course ++ [e]) }

/-- A launch send put into the launch stage in target order, after those of its own target (R296). -/
def insertStage (e : Send) : List Send → List Send
  | [] => [e]
  | x :: xs => if e.target.toNat < x.target.toNat then e :: x :: xs else x :: insertStage e xs

/-- TOL of R296, in whole nanoseconds: the larger of PRT_LAUNCH_TOL and G rounded up. -/
def State.launchTol (s : State) (p : PortId) : Nat :=
  max (s.rFld (Reg.prtLaunchTol p) 0 10) (((s.modeRow p).gap + 99) / 100)

/-- The earliest target of a port's armed launch plucks (R295). -/
def minTarget : List Send → Option Nat
  | [] => none
  | e :: es =>
    match minTarget es with
    | some m => some (min m e.target.toNat)
    | none => some e.target.toNat

/-- The guard rule lets a queued frame start on this tick (R295): s + O ≤ X_min − P − G, in hundredths of 2⁻¹⁶ ns. -/
def State.guardOk (s : State) (p : PortId) (e : Send) : Bool :=
  let m := s.modeRow p
  match minTarget (s.port p).launch with
  | some x => decide (s.nut.toNat * 100 + ((e.wireLen + 24) * (m.oct / 8) + m.oct + m.gap) * 65536 ≤ x * 100)
  | none => true

/-- The course whose queued frame the arbiter takes next: round-robin, passing over a head that the guard rule holds
(R19, R292, R295). -/
def State.nextQueued (s : State) (p : PortId) : Option (CourseId × Send) :=
  let y := s.port p
  let order : List CourseId := (List.range 4).map fun i => Fin.ofNat 4 (y.turn + 1 + i)
  order.findSome? fun c =>
    match y.queues.get c with
    | e :: _ => if s.guardOk p e then some (c, e) else none
    | [] => none

/-! ### The packet buffer -/

/-- A byte of a course's packet buffer; one whose contents are lost reads as a free value (R472). -/
def State.bufByte (s : State) (c : CourseId) (a : Nat) : Byte × State :=
  match (s.course c).buf.read? (a % 1048576) with
  | some b => (b, s)
  | none => s.free 8

/-- Consecutive bytes of a course's packet buffer. -/
def State.bufBytes (s : State) (c : CourseId) (a : Nat) : Nat → List Byte × State
  | 0 => ([], s)
  | k + 1 =>
    let (b, s1) := s.bufByte c a
    let (bs, s2) := s1.bufBytes c (a + 1) k
    (b :: bs, s2)

/-- Bytes stored to a course's packet buffer. A store gives a damaged byte a correct code again. -/
def State.storeBytes (s : State) (c : CourseId) (a : Nat) (bs : List Byte) : State :=
  { s.onCourse c (fun v => { v with buf := v.buf.writes a bs }) with
    bad := s.bad.filter fun e => !(e.1 == .packetBuffer && e.2.1 == c.val && a ≤ e.2.2 && decide (e.2.2 < a + bs.length)) }

/-- A damaged byte of a range of a course's packet buffer (R341, R454). -/
def State.badByte (s : State) (c : CourseId) (a n : Nat) : Option Nat :=
  (s.bad.find? fun e => e.1 == .packetBuffer && e.2.1 == c.val && a ≤ e.2.2 && decide (e.2.2 < a + n)).map fun e => e.2.2

/-! ### The stamp spec (R95 to R100) -/

/-- The fields of a stamp spec. -/
structure Spec where
  fmt  : Nat
  asym : Bool
  tun  : TunId
  foff : Nat
  cks  : Nat
  coff : Nat
  koff : Nat
  ref  : Nut
  deriving DecidableEq, Repr

/-- A stamp spec from its seven words (R95). -/
def specOf (ws : List Word) : Spec :=
  let w := fun i => ws.getD i 0
  { fmt := fld (w 6) 17 3, asym := bitOf (w 6) 15, tun := Fin.ofNat 16 (fld (w 6) 11 4), foff := fld (w 6) 0 11,
    cks := fld (w 5) 18 2, coff := fld (w 5) 0 11, koff := fld (w 4) 0 11, ref := BitVec.ofNat 80 (ofWords (ws.take 4)) }

/-- The fields a spec uses: offset and length (R98). -/
def Spec.fields (x : Spec) : List (Nat × Nat) :=
  (if x.fmt = 1 then [(x.foff, 8)] else if x.fmt = 2 then [(x.foff, 10)] else []) ++
  (if x.fmt = 2 || x.fmt = 3 then [(x.coff, 8)] else []) ++
  (if x.cks = 1 || x.cks = 2 then [(x.koff, 2)] else [])

/-- Two fields of a list overlap. -/
def overlaps : List (Nat × Nat) → Bool
  | [] => false
  | f :: fs => (fs.any fun g => decide (f.1 < g.1 + g.2) && decide (g.1 < f.1 + f.2)) || overlaps fs

/-- The spec is rejected for a frame of `len` bytes without FCS (R98). -/
def Spec.bad (x : Spec) (len : Nat) : Bool :=
  4 ≤ x.fmt || x.cks == 3 || (x.asym && x.fmt ≤ 1) || (x.fields.any fun f => f.1 < 16 || len < f.1 + f.2) || overlaps x.fields

/-- `n` bytes of a number, most significant first. -/
def beBytes : Nat → Nat → List Byte
  | 0, _ => []
  | n + 1, v => BitVec.ofNat 8 (v >>> (8 * n)) :: beBytes n v

/-- The number of bytes, most significant first. -/
def ofBeBytes (bs : List Byte) : Nat := bs.foldl (fun n b => n * 256 + b.toNat) 0

/-- Bytes of a frame replaced from an offset on. -/
def patch (bs : List Byte) (o : Nat) (new : List Byte) : List Byte := bs.take o ++ new ++ bs.drop (o + new.length)

/-- The departure conversion and the fields it gives (R96, R97, R100): the frame with its time fields written. -/
def State.writeFields (s : State) (p : PortId) (x : Spec) (t : Nut) (bs : List Byte) : List Byte :=
  let on := s.tunOn x.tun
  let v := s.reading x.tun t
  let asym := if x.asym then roundHaz ((s.reg (Reg.fretAsym p)).toInt * 65536) 1000 else 0
  let (ps, pn, sub) := ptpOf v
  let (ns, nf, _) := ntpOf v
  let b1 :=
    if x.fmt = 1 then patch bs x.foff (if on then beBytes 4 ns ++ beBytes 4 nf else beBytes 8 0)
    else if x.fmt = 2 then patch bs x.foff (if on then beBytes 6 ps ++ beBytes 4 pn else beBytes 10 0)
    else bs
  let add : Int :=
    if !on then asym
    else if x.fmt = 2 then (sub : Int) + asym
    else roundHaz (ftDiff v (s.reading x.tun x.ref)) 64 + asym
  if x.fmt = 2 || x.fmt = 3 then
    let old := ofBeBytes ((b1.drop x.coff).take 8)
    patch b1 x.coff (beBytes 8 ((((old : Int) + add) % (2 : Int) ^ 64).toNat))
  else b1

/-- A ones' complement sum folded to 16 bits. -/
def fold16 (n : Nat) : Nat := if n = 0 then 0 else (n - 1) % 65535 + 1

/-- The terms ~m + m' of the bytes that changed, by RFC 1624, each byte in the half its offset gives it (R99). -/
def changeSum (koff : Nat) : Nat → List Byte → List Byte → Nat
  | _, [], _ => 0
  | _, _, [] => 0
  | o, a :: as, b :: bs =>
    let k := if (o + koff) % 2 = 0 then 256 else 1
    (if a = b then 0 else (65535 - a.toNat * k) + b.toNat * k) + changeSum koff (o + 1) as bs

/-- The UDP checksum repaired for the bytes the fret changed (R99). -/
def repair (x : Spec) (old new : List Byte) : List Byte :=
  if x.cks = 1 || x.cks = 2 then
    let hc := ofBeBytes ((old.drop x.koff).take 2)
    if x.cks = 1 && hc = 0 then new
    else
      let r := 65535 - fold16 (65535 - hc + changeSum x.koff 0 old new)
      patch new x.koff (beBytes 2 (if r = 0 then 65535 else r))
  else new

end Sys2Proof.Machine
end

