-- ==== Sys2Proof/Machine/Operands.lean ====
section
/-! DEFINITION. Linkan-20 instructions: the issue of one (R301, R313, R316, R329, R330), its chords (R311), its second operand
(R317, R341), packet-window fields (R315, R355), and where its result goes (R303, R346). -/

namespace Sys2Proof

/-- A register names a chord of `w` words (R311). -/
def chordOk (r : BitVec 6) (w : Nat) : Bool :=
  if w = 2 then r.toNat % 2 == 0 else if w = 3 || w = 4 then r.toNat % 4 == 0
  else if w = 5 then r.toNat % 8 == 0 else true

/-- WID of an instruction. -/
def Fields.w (f : Fields) : Nat := f.wid.toNat
/-- WID is 1 to 5 (R316). -/
def Fields.widOk (f : Fields) : Bool := decide (1 ≤ f.w) && decide (f.w ≤ 5)
/-- MODE[i]. -/
def Fields.m (f : Fields) (i : Nat) : Bool := f.mode.getLsbD i
/-- BSEL. -/
def Fields.sel (f : Fields) : Nat := f.bsel.toNat

/-- Operand B's name is legal: a chord with BSEL 0 (R311). -/
def Fields.bOk (f : Fields) (w : Nat) : Bool := f.sel != 0 || chordOk f.srcb w

/-- An instruction with operand B runs as class Q where B lies in memory (R341). -/
def Fields.slow (f : Fields) : Bool := f.sel == 2 || f.sel == 3

/-- Operand A and DST name chords of WID words. -/
def Fields.abd (f : Fields) : Bool := chordOk f.srca f.w && chordOk f.dst f.w

end Sys2Proof

namespace Sys2Proof.Machine

/-- What an instruction does: a context fault, alone or in a state that it leaves; a fault on a damaged word (MEM, ADDR); it stalls
and issues again; or it completes, with the PC of the next one, and with `wait` its context stalls until the result returns. -/
inductive Res where
  | fault (code : Nat)
  | trap (code : Nat) (s : State)
  | ecc (mem addr : Nat)
  | hold (w : Stall)
  | go (wait : Bool) (s : State)
  | jump (pc : Nat) (s : State)

/-- Fault codes (R328). -/
abbrev Flt.illegal : Nat := 1
abbrev Flt.priv : Nat := 2
abbrev Flt.mem : Nat := 3
abbrev Flt.stack : Nat := 4

/-- A context is ready to issue: in RUN, and not past the limit that makes it a runaway (R301, R330). -/
def State.readyCtx (s : State) (x : CtxId) : Bool :=
  (s.ctx x).mode == .run && decide ((s.ctx x).issued ≤ (s.reg (Reg.crsRunaway (courseOf x))).toNat)

/-- The context that a string's next issue slot goes to: the first ready one after that which issued last (R301). -/
def State.nextIssuer (s : State) (st : StrId) : Option CtxId :=
  (((List.range 8).map fun i => (s.lastIss.get st + 1 + i) % 8).map fun k => Fin.ofNat 128 (st.val * 8 + k)).find? s.readyCtx

/-- A context runs: it is in RUN, its course runs, and its string is not fenced (R332, R334). -/
def State.runs (s : State) (x : CtxId) : Bool :=
  let c := courseOf x
  s.powered (1 + c.val) && (s.crsState c == CS.run || s.crsState c == CS.draining) && !s.strFenced (strOf x) &&
    (s.ctx x).mode == .run

/-- A context issues: it runs, and the slot is its own (R301). -/
def State.canIssue (s : State) (x : CtxId) : Bool := s.runs x && s.nextIssuer (strOf x) == some x

/-- An issue noted (R301, R330, R331, R423): `n` slots. -/
def State.noteIssue (s : State) (x : CtxId) (n : Nat) : State :=
  let st := strOf x
  let c := s.ctx x
  let s1 := s.strEvent st 1 n
  let s2 := if c.sys then s1.strEvent st 2 n else s1
  { s2 with quiet := vset s2.quiet st s2.nut, lastPc := vset s2.lastPc st c.pc, lastIss := vset s2.lastIss st (x.val % 8) }.onCtx x fun v =>
    { v with issued := v.issued + 1 }

/-- The PC moves on (R314). -/
def State.nextPc (s : State) (x : CtxId) : State := s.onCtx x fun c => { c with pc := c.pc + 1 }

/-- The word of the program table under a context's PC that has an uncorrectable error (R329). -/
def State.badFetch (s : State) (x : CtxId) : Bool :=
  s.bad.any fun e => e.1 == .programTable && e.2.1 == (courseOf x).val && e.2.2 / 3 == (s.ctx x).pc.toNat

/-- The three words of the program table under a context's PC, where their contents are known (R35). -/
def State.fetched (s : State) (x : CtxId) : Option Nat :=
  let m := (s.course (courseOf x)).prog
  let a := 3 * (s.ctx x).pc.toNat
  match m.read? a, m.read? (a + 1), m.read? (a + 2) with
  | some u, some v, some w => some (u.toNat * 2 ^ 40 + v.toNat * 2 ^ 20 + w.toNat)
  | _, _, _ => none

/-- The program table holds a code with no instruction assigned under a context's PC: ILLEGAL, whatever the command (R316, R328). -/
def State.badOp (s : State) (x : CtxId) : Bool := (s.fetched x).any fun w => (decodeIns x w).isNone

/-- An instruction of context x issued (R301, R313, R316, R329, R330): `n` slots (R303), whether its encoding is legal, and
what it does. A context that has issued CRS_RUNAWAY instructions issues no more before its fault (R330). -/
def State.issue (s : State) (x : CtxId) (f : Fields) (n : Nat) (legal : Bool) (body : State → Res) : State :=
  if !s.canIssue x then s
  else if (s.reg (Reg.crsRunaway (courseOf x))).toNat ≤ (s.ctx x).issued then
    s.onCtx x fun c => { c with issued := c.issued + 1 }
  else
    let one := s.noteIssue x 1
    if s.badFetch x then one.ctxFault x 5
    else if !condTrue f.cond (s.ctx x).fl then (one.strEvent (strOf x) 3 1).nextPc x
    else if !legal || s.badOp x then one.ctxFault x Flt.illegal
    else
      match body (s.noteIssue x n) with
      | .fault code => one.ctxFault x code
      | .trap code t => t.ctxFault x code
      | .ecc mem addr => one.eccFault x mem addr
      | .hold w => s.onCtx x fun c => { c with mode := .stall, stall := w }
      | .go false t => t.nextPc x
      | .go true t => (t.nextPc x).onCtx x fun c => { c with mode := .stall, stall := .result }
      | .jump pc t => t.onCtx x fun c => { c with pc := BitVec.ofNat 15 pc }

/-! ### Chords -/

/-- The words of a value written to the chord of a context. -/
def State.setChord (s : State) (x : CtxId) (r : BitVec 6) (w v : Nat) : State := s.onCtx x fun c => c.wr r.toNat (toWords w v)

/-- The flags of a context replaced where SF = 1 (R312). -/
def State.setFlags (s : State) (x : CtxId) (f : Fields) (g : Flags → Flags) : State :=
  if f.sf then s.onCtx x fun c => { c with fl := g c.fl } else s

/-- Z and N of a result of `w` words where SF = 1. -/
def State.setZn (s : State) (x : CtxId) (f : Fields) (w v : Nat) : State := s.setFlags x f fun g => g.zn (20 * w) v

/-! ### Crypto jobs in the way (R369) -/

/-- The outstanding jobs of a context's work item. -/
def State.ownJobs (s : State) (x : CtxId) : List Job :=
  let v := s.course (courseOf x)
  (v.jobs ++ v.lanes.toList.filterMap Lane.job).filter fun j => j.x == x && j.item == (s.ctx x).item

/-- The tag length of a CMAC or HMAC job (R365). -/
def Job.tagLen (j : Job) : Nat :=
  let n := fld (j.blk.getD 7 0) 0 6
  let full := if j.op = 2 then 16 else 32
  if n = 0 then full else n

/-- The ranges a job reads, as packet-buffer byte addresses and lengths (R365). -/
def Job.reads (j : Job) : List (Nat × Nat) :=
  let b := fun i => fld (j.blk.getD i 0) 0 11 + j.pw.toNat
  let l := fun i => fld (j.blk.getD i 0) 0 12
  (if j.op ≤ 1 then [(b 0, l 1), (b 2, l 3)] else []) ++ [(b 4, l 5)] ++
    (if 2 ≤ j.op && j.mode.getLsbD 0 then [(b 6, j.tagLen)] else [])

/-- The bytes a job writes at its output offset (R366 to R368). -/
def Job.outLen (j : Job) : Nat :=
  let l := fld (j.blk.getD 5 0) 0 12
  if j.op = 0 then (if j.mode.getLsbD 0 then l + 80 else l + 16)
  else if j.op = 1 then (if j.mode.getLsbD 0 then l - 80 else l - 16)
  else if j.mode.getLsbD 0 then 0 else j.tagLen

/-- The range a job writes. -/
def Job.writes (j : Job) : Nat × Nat := (fld (j.blk.getD 6 0) 0 11 + j.pw.toNat, j.outLen)

/-- Two ranges share a byte. -/
def meets (a b : Nat × Nat) : Bool :=
  decide (0 < a.2) && decide (0 < b.2) && decide (a.1 < b.1 + b.2) && decide (b.1 < a.1 + a.2)

/-- A load from a range that an outstanding job of the context writes waits (R369). -/
def State.loadWaits (s : State) (x : CtxId) (a n : Nat) : Bool := (s.ownJobs x).any fun j => meets j.writes (a, n)

/-- A store waits for an outstanding job that reads or writes its bytes (R369). -/
def State.storeWaits (s : State) (x : CtxId) (a n : Nat) : Bool :=
  (s.ownJobs x).any fun j => meets j.writes (a, n) || j.reads.any fun r => meets r (a, n)

/-- A store waits for a send from its slot (R358). -/
def State.slotWaits (s : State) (x : CtxId) (a : Nat) : Bool := (s.course (courseOf x)).sending.contains (a / 2048)

/-! ### Memory reads -/

/-- What a read gives: words or bytes as a number, with the state after; else why it does not complete. -/
inductive Got where
  | val (v : Nat) (s : State)
  | fault (code : Nat)
  | ecc (mem addr : Nat)
  | hold (w : Stall)

/-- A word of a course's data SRAM; one whose contents are lost reads as a free value (R36, R472). -/
def State.dataWord (s : State) (c : CourseId) (a : Nat) : Word × State :=
  match (s.course c).data.read? (a % 524288) with
  | some w => (w, s)
  | none => s.free 20

/-- Consecutive words of the data SRAM, the address modulo 2¹⁹ (R341). -/
def State.dataWords (s : State) (c : CourseId) (a : Nat) : Nat → List Word × State
  | 0 => ([], s)
  | k + 1 =>
    let (w, s1) := s.dataWord c a
    let (ws, s2) := s1.dataWords c (a + 1) k
    (w :: ws, s2)

/-- A damaged word of a range of a course's data SRAM. -/
def State.badData (s : State) (c : CourseId) (a n : Nat) : Option Nat :=
  ((List.range n).find? fun i => s.bad.contains (.dataSram, c.val, (a + i) % 524288)).map fun i => (a + i) % 524288

/-- A load of `w` words from the data SRAM. -/
def State.loadData (s : State) (x : CtxId) (a w : Nat) : Got :=
  let c := courseOf x
  match s.badData c a w with
  | some b => .ecc 1 b
  | none =>
    let (ws, s1) := s.dataWords c (a % 524288) w
    .val (ofWords ws) s1

/-- A packet-window field of `n` bits from bit `o` of the window, most significant bit first (R317, R355). -/
def State.loadField (s : State) (x : CtxId) (o n : Nat) : Got :=
  let c := courseOf x
  let pw := (s.ctx x).pw.toNat
  let lo := o / 8
  let hi := (o + n + 7) / 8
  if 16384 < o + n then .fault Flt.mem
  else if s.loadWaits x (pw + lo) (hi - lo) then .hold .own
  else
    match s.badByte c (pw + lo) (hi - lo) with
    | some b => .ecc 2 b
    | none =>
      let (bs, s1) := s.bufBytes c (pw + lo) (hi - lo)
      .val (ofBeBytes bs / 2 ^ (8 * hi - o - n) % 2 ^ n) s1

/-- The bit offset of a field in IMM, and its length (R317). -/
def fieldOff (imm : Word) : Nat := fld imm 6 14
def fieldLen (imm : Word) : Nat := fld imm 0 6 + 1

/-- Operand B of `w` words (R317). -/
def State.srcB (s : State) (x : CtxId) (f : Fields) (w : Nat) : Got :=
  match f.sel with
  | 0 => .val ((s.ctx x).chord f.srcb.toNat w) s
  | 1 => .val (unsignedOf (20 * w) f.imm.toInt) s
  | 2 => if 20 * w < fieldLen f.imm then .fault Flt.illegal else s.loadField x (fieldOff f.imm) (fieldLen f.imm)
  | _ => s.loadData x (((s.ctx x).r f.srcb.toNat).toNat + fld f.imm 0 19) w

/-- A read's outcome handed on. -/
def Got.bind (g : Got) (k : Nat → State → Res) : Res :=
  match g with
  | .val v s => k v s
  | .fault c => .fault c
  | .ecc m a => .ecc m a
  | .hold w => .hold w

/-- An instruction of the data path on chords A and B of `w` words with a result of `w` words and flags (R312, R346): `op`
takes A, B and the flags and gives the result, if one is written, and the flags. -/
def State.alu (s : State) (x : CtxId) (f : Fields) (n : Nat) (legal : Bool) (op : Nat → Nat → Flags → Option Nat × Flags) :
    State :=
  let w := f.w
  s.issue x f n (f.widOk && legal && f.bOk w) fun t =>
    (t.srcB x f w).bind fun b u =>
      let c := u.ctx x
      let (r, fl) := op (c.chord f.srca.toNat w) b c.fl
      let u1 := match r with
        | some v => u.setChord x f.dst w v
        | none => u
      .go f.slow (u1.setFlags x f fun _ => fl)

/-- An instruction without operand B: A is a chord of `a` words, the result one of `d` words. -/
def State.unary (s : State) (x : CtxId) (f : Fields) (n a d : Nat) (legal : Bool) (op : Nat → Flags → Nat × Flags) : State :=
  s.issue x f n (legal && chordOk f.srca a && chordOk f.dst d) fun t =>
    let c := t.ctx x
    let (r, fl) := op (c.chord f.srca.toNat a) c.fl
    .go false ((t.setChord x f.dst d r).setFlags x f fun _ => fl)

end Sys2Proof.Machine
end

