-- ==== Sys2Proof/Machine/Chord.lean ====
section
/-! DEFINITION. Linkan-20: chord arithmetic (R346 to R348). Each meaning is one instruction issued on a context. -/

namespace Sys2Proof.Machine

/-- ADD: A + B. -/
def execAdd (x : CtxId) (f : Fields) (s : State) : Host.Outcome State Fault Refusal :=
  .next (s.alu x f 1 f.abd fun a b g => (some (a + b), g.sum (20 * f.w) a b 0))

/-- ADC: A + B + C. -/
def execAdc (x : CtxId) (f : Fields) (s : State) : Host.Outcome State Fault Refusal :=
  .next (s.alu x f 1 f.abd fun a b g => (some (a + b + g.c.toNat), g.sum (20 * f.w) a b g.c.toNat))

/-- SUB: A − B. -/
def execSub (x : CtxId) (f : Fields) (s : State) : Host.Outcome State Fault Refusal :=
  .next (s.alu x f 1 f.abd fun a b g => (some (subMod (20 * f.w) a b 0), g.diff (20 * f.w) a b 0))

/-- SBC: A − B − (1 − C). -/
def execSbc (x : CtxId) (f : Fields) (s : State) : Host.Outcome State Fault Refusal :=
  .next (s.alu x f 1 f.abd fun a b g => (some (subMod (20 * f.w) a b (!g.c).toNat), g.diff (20 * f.w) a b (!g.c).toNat))

/-- CMP: the flags of A − B. -/
def execCmp (x : CtxId) (f : Fields) (s : State) : Host.Outcome State Fault Refusal :=
  .next (s.alu x f 1 (chordOk f.srca f.w) fun a b g => (none, g.diff (20 * f.w) a b 0))

/-- NEG: 0 − B. -/
def execNeg (x : CtxId) (f : Fields) (s : State) : Host.Outcome State Fault Refusal :=
  .next (s.alu x f 1 (chordOk f.dst f.w) fun _ b g => (some (subMod (20 * f.w) 0 b 0), g.diff (20 * f.w) 0 b 0))

/-- AND. -/
def execAnd (x : CtxId) (f : Fields) (s : State) : Host.Outcome State Fault Refusal :=
  .next (s.alu x f 1 f.abd fun a b g => (some (a &&& b), g.zn (20 * f.w) (a &&& b)))

/-- OR. -/
def execOr (x : CtxId) (f : Fields) (s : State) : Host.Outcome State Fault Refusal :=
  .next (s.alu x f 1 f.abd fun a b g => (some (a ||| b), g.zn (20 * f.w) (a ||| b)))

/-- XOR. -/
def execXor (x : CtxId) (f : Fields) (s : State) : Host.Outcome State Fault Refusal :=
  .next (s.alu x f 1 f.abd fun a b g => (some (a ^^^ b), g.zn (20 * f.w) (a ^^^ b)))

/-- BIC: A AND NOT B. -/
def execBic (x : CtxId) (f : Fields) (s : State) : Host.Outcome State Fault Refusal :=
  .next (s.alu x f 1 f.abd fun a b g => (some (a ^^^ (a &&& b)), g.zn (20 * f.w) (a ^^^ (a &&& b))))

/-- TST: the flags of A AND B. -/
def execTst (x : CtxId) (f : Fields) (s : State) : Host.Outcome State Fault Refusal :=
  .next (s.alu x f 1 (chordOk f.srca f.w) fun a b g => (none, g.zn (20 * f.w) (a &&& b)))

/-- MOV: B. -/
def execMov (x : CtxId) (f : Fields) (s : State) : Host.Outcome State Fault Refusal :=
  .next (s.alu x f 1 (chordOk f.dst f.w) fun _ b g => (some b, g.zn (20 * f.w) b))

/-- SETW: word MODE[2:0] of G(DST) := IMM (R346). -/
def execSetw (x : CtxId) (f : Fields) (s : State) : Host.Outcome State Fault Refusal :=
  .next (
    let k := f.mode.toNat % 8
    s.issue x f 1 (f.widOk && chordOk f.dst f.w && decide (k < f.w)) fun t =>
      .go false (t.onCtx x fun c => c.wr (f.dst.toNat + k) [f.imm]))

/-- The shift amount of B (R347). -/
def shiftOf (b : Nat) : Nat := b % 128

/-- A shift's flags: Z, N and C (R347). -/
def Flags.shifted (g : Flags) (n : Nat) (r : Nat × Bool) : Flags := { g.zn n r.1 with c := r.2 }

/-- SHL. -/
def execShl (x : CtxId) (f : Fields) (s : State) : Host.Outcome State Fault Refusal :=
  .next (s.alu x f 1 f.abd fun a b g =>
    (some (shlOf (20 * f.w) a (shiftOf b)).1, g.shifted (20 * f.w) (shlOf (20 * f.w) a (shiftOf b))))

/-- SHR. -/
def execShr (x : CtxId) (f : Fields) (s : State) : Host.Outcome State Fault Refusal :=
  .next (s.alu x f 1 f.abd fun a b g =>
    (some (shrOf (20 * f.w) a (shiftOf b)).1, g.shifted (20 * f.w) (shrOf (20 * f.w) a (shiftOf b))))

/-- SAR. -/
def execSar (x : CtxId) (f : Fields) (s : State) : Host.Outcome State Fault Refusal :=
  .next (s.alu x f 1 f.abd fun a b g =>
    (some (sarOf (20 * f.w) a (shiftOf b)).1, g.shifted (20 * f.w) (sarOf (20 * f.w) a (shiftOf b))))

/-- ROL: C is unchanged. -/
def execRol (x : CtxId) (f : Fields) (s : State) : Host.Outcome State Fault Refusal :=
  .next (s.alu x f 1 f.abd fun a b g =>
    (some (rolOf (20 * f.w) a (shiftOf b)), g.zn (20 * f.w) (rolOf (20 * f.w) a (shiftOf b))))

/-- MULL: the low half of the unsigned product; C where the high half is not 0 (R348). -/
def execMull (x : CtxId) (f : Fields) (s : State) : Host.Outcome State Fault Refusal :=
  .next (s.alu x f f.w f.abd fun a b g =>
    (some (a * b), { g.zn (20 * f.w) (a * b % 2 ^ (20 * f.w)) with c := a * b / 2 ^ (20 * f.w) != 0, v := false }))

/-- Flags of a high half: C and V are 0. -/
def Flags.high (g : Flags) (n v : Nat) : Flags := { g.zn n v with c := false, v := false }

/-- MULH: the high half of the unsigned product. -/
def execMulh (x : CtxId) (f : Fields) (s : State) : Host.Outcome State Fault Refusal :=
  .next (s.alu x f f.w f.abd fun a b g =>
    (some (a * b / 2 ^ (20 * f.w)), g.high (20 * f.w) (a * b / 2 ^ (20 * f.w))))

/-- The high half of a signed product of `n` bits. -/
def mulhs (n a b : Nat) : Nat := unsignedOf n (signedOf n a * signedOf n b / (2 : Int) ^ n)

/-- MULHS: the high half of the signed product. -/
def execMulhs (x : CtxId) (f : Fields) (s : State) : Host.Outcome State Fault Refusal :=
  .next (s.alu x f f.w f.abd fun a b g => (some (mulhs (20 * f.w) a b), g.high (20 * f.w) (mulhs (20 * f.w) a b)))

/-- DIVU: all ones and V for a divisor of 0 (R348). -/
def execDivu (x : CtxId) (f : Fields) (s : State) : Host.Outcome State Fault Refusal :=
  .next (s.alu x f (4 * f.w) f.abd fun a b g =>
    let r := if b = 0 then 2 ^ (20 * f.w) - 1 else a / b
    (some r, { g.zn (20 * f.w) r with v := b == 0 }))

/-- REMU: A and V for a divisor of 0 (R348). -/
def execRemu (x : CtxId) (f : Fields) (s : State) : Host.Outcome State Fault Refusal :=
  .next (s.alu x f (4 * f.w) f.abd fun a b g =>
    let r := if b = 0 then a else a % b
    (some r, { g.zn (20 * f.w) r with v := b == 0 }))

/-- The leading zero bits of a value of `n` bits. -/
def clzOf (n v : Nat) : Nat := if v = 0 then n else n - 1 - v.log2

/-- CLZ. -/
def execClz (x : CtxId) (f : Fields) (s : State) : Host.Outcome State Fault Refusal :=
  .next (s.unary x f 1 f.w f.w f.widOk fun a g => (clzOf (20 * f.w) a, g.zn (20 * f.w) (clzOf (20 * f.w) a)))

/-- Words stored to a course's data SRAM, the address modulo 2¹⁹ (R341). A store gives a damaged word a correct code again. -/
def State.storeData (s : State) (c : CourseId) (a : Nat) : List Word → State
  | [] => s
  | w :: ws =>
    let b := a % 524288
    let s1 := s.onCourse c fun v => { v with data := v.data.write b w }
    ({ s1 with bad := s1.bad.filter fun e => e != (MemKind.dataSram, c.val, b) }).storeData c (a + 1) ws

/-- STM: the words of A to the data SRAM (R346). -/
def execStm (x : CtxId) (f : Fields) (s : State) : Host.Outcome State Fault Refusal :=
  .next (s.issue x f 1 (f.widOk && chordOk f.srca f.w && f.sel == 3) fun t =>
    let c := t.ctx x
    .go false (t.storeData (courseOf x) ((c.r f.srcb.toNat).toNat + fld f.imm 0 19) (c.rd f.srca.toNat f.w)))

end Sys2Proof.Machine
end

