-- ==== Sys2Proof/Machine/Hash.lean ====
section
/-! DEFINITION. CRC-32C over bytes, reflected: SRC_HASH, the client table and the check word of an image (R284, R361,
R485). -/

namespace Sys2Proof.Machine

/-- One bit of a reflected CRC with polynomial `poly`. -/
def crcBit (poly c : BitVec 32) : BitVec 32 := if c.getLsbD 0 then (c >>> 1) ^^^ poly else c >>> 1

/-- One byte of a reflected CRC. -/
def crcByte (poly c : BitVec 32) (b : Byte) : BitVec 32 :=
  (List.range 8).foldl (fun d _ => crcBit poly d) (c ^^^ b.setWidth 32)

/-- A reflected CRC over bytes from an initial value, inverted at the end. -/
def crcBytes (poly init : BitVec 32) (bs : List Byte) : BitVec 32 := ~~~(bs.foldl (crcByte poly) init)

/-- CRC-32C from an initial value (R284, R361). -/
def crc32c (init : BitVec 32) (bs : List Byte) : BitVec 32 := crcBytes 0x82F63B78 init bs

end Sys2Proof.Machine
end

