-- ==== Sys2Proof/Machine/RxOps.lean ====
section
/-! DEFINITION. The receive path: the parser (R281 to R284), steering (R285, R286), class queues (R288), and what becomes of
a stored frame (R20, R279, R290, R297). -/

namespace Sys2Proof.Machine

/-- A byte of a frame. -/
def byteAt (f : List Byte) (o : Nat) : Nat := (f.getD o 0).toNat
/-- A big-endian 16-bit number of a frame. -/
def be16 (f : List Byte) (o : Nat) : Nat := byteAt f o * 256 + byteAt f (o + 1)
/-- Bytes of a frame. -/
def bytesAt (f : List Byte) (o n : Nat) : List Byte := (f.drop o).take n

/-- The sum of bytes as big-endian 16-bit words, an odd last byte padded with a zero byte. -/
def sum16 : List Byte → Nat
  | [] => 0
  | [a] => a.toNat * 256
  | a :: b :: l => a.toNat * 256 + b.toNat + sum16 l

/-- The offset of the EtherType that is no 0x8100 tag, from offset `o` on, with the tags passed. -/
def tagWalk (f : List Byte) : Nat → Nat → Nat → Nat × Nat
  | 0, o, n => (o, n)
  | k + 1, o, n => if be16 f o = 0x8100 then tagWalk f k (o + 4) (n + 1) else (o, n)

/-- What the parser finds in a frame (R281, R282). -/
structure Parsed where
  vlan   : Nat
  vid    : Nat
  pcp    : Nat
  etype  : Nat
  l3     : Nat
  l3off  : Nat
  l4     : Nat
  l4off  : Nat
  hdr    : Nat
  payLen : Nat
  proto  : Nat
  deriving DecidableEq, Repr

/-- The parser (R282): `len` is LEN; the frame may be followed by bytes that lie beyond it. -/
def parseFrame (f : List Byte) (len : Nat) : Parsed :=
  let (eo, tags) := tagWalk f 600 12 0
  let et := be16 f eo
  let vlan := if et = 0x88A8 && tags = 0 then 2 else min 2 tags
  let tci := be16 f 14
  let o := eo + 2
  let v := byteAt f o
  let ihl := v % 16
  let tot := be16 f (o + 2)
  let pay := be16 f (o + 4)
  let l3 :=
    if vlan = 2 then 0
    else if et = 0x0800 && v / 16 == 4 && 5 ≤ ihl && decide (tot + o ≤ len) then 1
    else if et = 0x86DD && v / 16 == 6 && decide (pay + o + 40 ≤ len) then 2
    else if et = 0x0806 then 3 else 0
  let hdr := if l3 = 1 then ihl * 4 else if l3 = 2 then 40 else 0
  let payLen := if l3 = 1 then tot - ihl * 4 else if l3 = 2 then pay else 0
  let proto := if l3 = 1 then byteAt f (o + 9) else if l3 = 2 then byteAt f (o + 6) else 0
  let frag := l3 == 1 && be16 f (o + 6) % 16384 != 0
  let ul := be16 f (o + hdr + 4)
  let l4 :=
    if frag then 3
    else if (l3 = 1 || l3 = 2) && proto = 17 && 8 ≤ ul && decide (ul ≤ payLen) then 1
    else if l3 = 2 && proto = 58 then 2 else 0
  { vlan := vlan, vid := if vlan = 1 then tci % 4096 else 0, pcp := if vlan = 1 then tci / 8192 else 0, etype := et, l3 := l3,
    l3off := o, l4 := l4, l4off := if l4 = 1 || l4 = 2 then o + hdr else 0, hdr := hdr, payLen := payLen, proto := proto }

/-- The pseudo-header sum of an L4 checksum over `n` bytes of protocol `proto` (R283). -/
def pseudoSum (f : List Byte) (p : Parsed) (proto n : Nat) : Nat :=
  (if p.l3 = 1 then sum16 (bytesAt f (p.l3off + 12) 8) else sum16 (bytesAt f (p.l3off + 8) 32)) + proto + n

/-- L3_CKS_OK (R283). -/
def l3Ok (f : List Byte) (p : Parsed) : Bool := p.l3 != 1 || fold16 (sum16 (bytesAt f p.l3off p.hdr)) == 65535

/-- L4_CKS_OK (R283). -/
def l4Ok (f : List Byte) (p : Parsed) : Bool :=
  if p.l4 = 1 then
    let n := be16 f (p.l4off + 4)
    let ck := be16 f (p.l4off + 6)
    let good := fold16 (pseudoSum f p 17 n + sum16 (bytesAt f p.l4off n)) == 65535
    if ck = 0 then p.l3 == 1 else good
  else if p.l4 = 2 then
    fold16 (pseudoSum f p 58 p.payLen + sum16 (bytesAt f p.l4off p.payLen)) == 65535
  else false

/-- PB (R282). -/
def payloadByte (f : List Byte) (p : Parsed) : Nat :=
  if p.l4 = 1 then byteAt f (p.l4off + 8)
  else if p.l3 = 1 || p.l3 = 2 then byteAt f (p.l3off + p.hdr)
  else byteAt f p.l3off

/-- DMAC (R282). -/
def State.dmacOf (s : State) (p : PortId) (f : List Byte) : Nat :=
  let d := ofBeBytes (bytesAt f 0 6)
  if d = s.regN (Reg.prtMac p) 3 % 2 ^ 48 then 0
  else if d = 2 ^ 48 - 1 then 1
  else if byteAt f 0 % 2 = 1 then 2 else 3

/-- SRC_HASH (R284). -/
def State.srcHash (s : State) (c : CourseId) (f : List Byte) (p : Parsed) : Word :=
  let init : BitVec 32 := BitVec.ofNat 32 ((s.reg (Reg.crsHashSeed c)).toNat * 4096 + 4095)
  if p.l3 = 1 then (crc32c init (bytesAt f (p.l3off + 12) 4)).setWidth 20
  else if p.l3 = 2 then (crc32c init (bytesAt f (p.l3off + 8) 16)).setWidth 20
  else 0

/-- The steering key as one number, word 0 lowest (R285). -/
def State.steerKey (s : State) (p : PortId) (f : List Byte) (x : Parsed) : Nat :=
  let w4 := p.val % 6 * 131072 + s.dmacOf p f * 32768 + x.vlan * 8192 + x.l3 * 2048 + x.l4 * 512 + (l3Ok f x).toNat * 256 +
    (l4Ok f x).toNat * 128
  let w3 := x.vid * 256 + payloadByte f x
  let dport := if x.l4 = 1 then be16 f (x.l4off + 2) else 0
  x.proto + dport * 2 ^ 20 + x.etype * 2 ^ 40 + w3 * 2 ^ 60 + w4 * 2 ^ 80

/-- The committed VAL and MASK of a steering entry lie beside its staging registers (R286). -/
def steerHeld (c e : Nat) : Nat := 0x1200000 + (c * 64 + e) * 64

/-- The lowest-numbered matching entry (R285). -/
def State.steerMatch (s : State) (c : CourseId) (key : Nat) : Option Nat :=
  (List.range 64).find? fun e =>
    s.rBit (Reg.crsSteerAct c e) 19 &&
      ((key ^^^ s.regN (steerHeld c e) 5) &&& s.regN (steerHeld c e + 20) 5) == 0

/-- The descriptor of a frame (R281). -/
def State.descriptor (s : State) (p : PortId) (c : CourseId) (f : List Byte) (len slot : Nat) (x : Parsed) (t : Nut)
    (tg calw per : Bool) (rule cls : Nat) : Vector Word 12 :=
  let w := fun (n : Nat) => (BitVec.ofNat 20 n : Word)
  let st := toWords 4 t.toNat
  #v[st.getD 0 0, st.getD 1 0, st.getD 2 0, st.getD 3 0,
    w (tg.toNat * 2 ^ 19 + calw.toNat * 2 ^ 18 + per.toNat * 2 ^ 17 + p.val * 4096 + len),
    w (slot * 2048),
    w (x.vlan * 2 ^ 18 + x.l3 * 2 ^ 16 + x.l4 * 2 ^ 14 + (l3Ok f x).toNat * 2 ^ 13 + (l4Ok f x).toNat * 2 ^ 12 + x.vid),
    w (x.l3off % 64 * 2 ^ 14 + x.l4off % 256 * 64 + cls * 8 + x.pcp),
    w (if x.l4 = 1 then be16 f (x.l4off + 2) else 0),
    w (if x.l4 = 1 then be16 f x.l4off else 0),
    w (rule * 2 ^ 14),
    s.srcHash c f x]

/-- A descriptor joins its class queue, or is dropped by a full one (R288). -/
def State.enqueueClass (s : State) (c : CourseId) (k : Fin 8) (d : Vector Word 12) (slot : Nat) : State :=
  let q := (s.course c).classes.get k
  if q.length < s.rFld (Reg.crsClassCfg c k) 0 12 then
    (s.onCourse c fun v => { v with classes := vset v.classes k (q ++ [d]) }).crsEvent c 1 (some k.val) 1
  else
    ((((s.freeSlot c slot).addSat (Reg.crsClassDrop c k) 1).orReg (Reg.crsCause c) 0x40000)).crsEvent c 2 (some k.val) 1

/-- A punt that cannot be copied is dropped and counted (R290). -/
def State.puntDrop (s : State) (c : CourseId) (u : Punt) : State :=
  let s0 := (s.addSat (Reg.crsPuntDrop c u.ring) 1).crsEvent c 4 (some u.ring.val) 1
  let s1 := { s0 with rxLost := vset s0.rxLost u.ring true }
  match u.slot with
  | some k => s1.freeSlot c k
  | none => s1

/-- The action of a steering word applied to a stored frame (R285, R288, R290, R297). -/
def State.steerAct (s : State) (c : CourseId) (act : Word) (d : Vector Word 12) (frame : List Byte) (slot : Nat) : State :=
  match fld act 17 2 with
  | 0 => s.enqueueClass c (Fin.ofNat 8 (fld act 14 3)) d slot
  | 1 => s.onCourse c fun v =>
      { v with punts := v.punts ++ [{ ring := Fin.ofNat 8 (fld act 11 3), desc := d, frame := frame, slot := some slot }] }
  | _ => s.freeSlot c slot

/-- A stored frame classified (R279, R285): `f` is the frame with the bytes that lie beyond it. -/
def State.steer (s : State) (p : PortId) (frame f : List Byte) (slot : Nat) (t : Nut) (tg calw per : Bool) : State :=
  let c := homeOf p
  let x := parseFrame f frame.length
  match s.steerMatch c (s.steerKey p f x) with
  | some e =>
    let act := s.reg (Reg.crsSteerAct c e)
    let d := s.descriptor p c f frame.length slot x t tg calw per e (fld act 14 3)
    (s.addSat (Reg.crsSteerHit c e) 1).steerAct c act d frame slot
  | none =>
    let act := s.reg (Reg.crsSteerDefault c)
    let d := s.descriptor p c f frame.length slot x t tg calw per 63 (fld act 14 3)
    (s.addSat (Reg.crsSteerDefhit c) 1).steerAct c act d frame slot

/-- A frame counted by a port's counters and its bandwidth window (R425, R426). -/
def State.countFrame (s : State) (p : PortId) (tx : Bool) (bytes : Nat) : State :=
  let k := if tx then 2 else 0
  let s1 := (s.count (Cnt.prt p k) bytes).count (Cnt.prt p (k + 1)) 1
  if reached s1.nut (s1.port p).bwFrom then
    s1.onPort p fun y =>
      if tx then { y with sums := { y.sums with txB := y.sums.txB + bytes, txF := y.sums.txF + 1 } }
      else { y with sums := { y.sums with rxB := y.sums.rxB + bytes, rxF := y.sums.rxF + 1 } }
  else s1

/-- The receive stamp of R86 and its flags TG, CAL_WARN, PER_NOM (R93, R451). -/
def State.rxStamp (s : State) (p : PortId) (m : LineMark) : Nut × Bool × Bool × Bool :=
  let sE := s.lineStamp (rxLine p) m.code (s.fretNut p)
  let back := s.uiTime p false (((s.modeRow p).w * m.word : Nat) - (m.ui : Int))
  let t := sE - BitVec.ofNat 80 (Config.dRx p (s.modeRow p).idx).toNat - BitVec.ofInt 80 back +
    BitVec.ofInt 80 (s.reg (Reg.fretAdjRx p)).toInt
  (t, s.lineTg (rxLine p) (s.fretNut p), s.lineWarn (rxLine p) m.code (s.fretNut p) || !s.fretIn p, !s.rBit (Reg.fretStat p) 19)

/-- The transmit stamp of R87 and its flags (R102, R451). -/
def State.txStamp (s : State) (p : PortId) (m : LineMark) : Nut × Bool × Bool × Bool :=
  let sE := s.lineStamp (txLine p) m.code (s.fretNut p)
  let fwd := s.uiTime p true ((m.ui : Int) - ((s.modeRow p).w * m.word : Nat))
  let t := sE + BitVec.ofNat 80 (Config.dTx p (s.modeRow p).idx).toNat + BitVec.ofInt 80 fwd +
    BitVec.ofInt 80 (s.reg (Reg.fretAdjTx p)).toInt
  (t, s.lineTg (txLine p) (s.fretNut p), s.lineWarn (txLine p) m.code (s.fretNut p) || !s.fretIn p, !s.rBit (Reg.fretStat p) 18)

/-- Every frame that arrives is stamped, whether or not it is stored (R68, R69, R86): the UI count moves to its timestamp point, and its
line has captured a real event. -/
def State.rxArrive (s : State) (p : PortId) (m : RxMark) : State :=
  (s.onPort p fun y => { y with rxUi := y.rxUi + m.ui }).capture (rxLine p) m.code (s.fretNut p)

/-- A frame that passed the MAC's checks (R20, R93, R276, R279, R285). -/
def State.rxStore (s : State) (p : PortId) (frame : List Byte) (m : LineMark) : State :=
  let c := homeOf p
  let (t, tg, calw, per) := s.rxStamp p m
  let s1 := s.countFrame p false (frame.length + 4)
  if !s1.homeUp c then s1.addSat (Reg.prtCnt p 4) 1
  else
    match s1.takeSlot c with
    | none => s1.addSat (Reg.prtCnt p 5) 1
    | some (slot, s2) =>
      let (pad, s3) := s2.free 2048
      let beyond := beBytes 256 pad.toNat
      let s4 := s3.onCourse c fun v => { v with capAt := Sparse.insert v.capAt slot s.nut }
      (s4.storeBytes c (slot * 2048) frame).steer p frame (frame ++ beyond) slot t tg calw per

end Sys2Proof.Machine
end

