-- ==== Sys2Proof/Machine/Packet.lean ====
section
/-! DEFINITION. Linkan-20: the packet window, sends, punts and drops (R315, R355 to R359), and the completion of a send (R293,
R320, R325, R358). -/

namespace Sys2Proof.Machine

/-- A context may set PW to the slot it owns, or to a slot outside the receive pool (R315). -/
def State.mayWindow (s : State) (x : CtxId) (k : Nat) : Bool := (s.ctx x).slot == some k || !s.inPool (courseOf x) k

/-- SETPW (R315). -/
def execSetpw (x : CtxId) (f : Fields) (s : State) : Host.Outcome State Fault Refusal :=
  .next (s.issue x f 1 (f.w == 1) fun t =>
    let k := if f.m 0 then fld f.imm 0 9 else fld ((t.ctx x).r f.srca.toNat) 11 9
    if t.mayWindow x k then .go false (t.onCtx x fun c => { c with pw := BitVec.ofNat 20 (k * 2048) }) else .fault Flt.mem)

/-- The bit offset of LDF's and STF's field (R355). -/
def State.fieldAt (s : State) (x : CtxId) (f : Fields) : Nat :=
  fieldOff f.imm + (if f.m 0 then 8 * fld ((s.ctx x).r f.srca.toNat) 0 11 else 0)

/-- LDF (R355). -/
def execLdf (x : CtxId) (f : Fields) (s : State) : Host.Outcome State Fault Refusal :=
  .next (s.issue x f 1 (f.widOk && chordOk f.dst f.w && decide (fieldLen f.imm ≤ 20 * f.w)) fun t =>
    (t.loadField x (t.fieldAt x f) (fieldLen f.imm)).bind fun v u => .go true ((u.setChord x f.dst f.w v).setZn x f f.w v))

/-- A field of `n` bits stored at bit `o` of the window, most significant bit first (R355). -/
def State.storeField (s : State) (x : CtxId) (o n v : Nat) : Res :=
  let c := courseOf x
  let pw := (s.ctx x).pw.toNat
  let lo := o / 8
  let hi := (o + n + 7) / 8
  let sh := 8 * hi - o - n
  if 16384 < o + n then .fault Flt.mem
  else if s.storeWaits x (pw + lo) (hi - lo) then .hold .own
  else if s.slotWaits x (pw + lo) then .hold .slot
  else
    let (bs, s1) := s.bufBytes c (pw + lo) (hi - lo)
    let old := ofBeBytes bs
    let new := old - (old / 2 ^ sh % 2 ^ n) * 2 ^ sh + (v % 2 ^ n) * 2 ^ sh
    .go false (s1.storeBytes c (pw + lo) (beBytes (hi - lo) new))

/-- STF (R355). -/
def execStf (x : CtxId) (f : Fields) (s : State) : Host.Outcome State Fault Refusal :=
  .next (s.issue x f 1 (f.widOk && chordOk f.srcb f.w && decide (fieldLen f.imm ≤ 20 * f.w)) fun t =>
    t.storeField x (t.fieldAt x f) (fieldLen f.imm) ((t.ctx x).chord f.srcb.toNat f.w))

/-- The result of CKSUM from a sum (R356): SUM, IP or UDP. -/
def cksumKind (mode sum : Nat) : Nat :=
  let v := fold16 sum
  let n := 65535 - v
  if mode = 0 then v else if mode = 1 then n else if n = 0 then 65535 else n

/-- CKSUM (R356). -/
def execCksum (x : CtxId) (f : Fields) (s : State) : Host.Outcome State Fault Refusal :=
  .next (
    let mode := f.mode.toNat % 4
    s.issue x f 1 (f.w == 1 && decide (f.sel ≤ 1) && mode != 3) fun t =>
      let c := courseOf x
      let g := t.ctx x
      let o := fld f.imm 0 11 + fld (g.r f.srca.toNat) 0 11
      let n := if f.sel = 1 then fld f.imm 11 9 else fld (g.r f.srcb.toNat) 0 12
      let a := g.pw.toNat + o
      if 2048 < o + n then .fault Flt.mem
      else if t.loadWaits x a n then .hold .own
      else
        match t.badByte c a n with
        | some b => .ecc 2 b
        | none =>
          let (bs, t1) := t.bufBytes c a n
          let r := cksumKind mode (fld (g.r f.dst.toNat) 0 16 + sum16 bs)
          .go true ((t1.onCtx x fun v => v.wr f.dst.toNat [BitVec.ofNat 20 r]).setFlags x f fun fl => { fl with z := r == 0 }))

/-- The frame at PW is the context's to send or punt: the slot it owns, one outside the pool, or one with a send outstanding
(R315; DEDUCED, notes/assumptions/32.md). -/
def State.mayUse (s : State) (x : CtxId) (k : Nat) : Bool := s.mayWindow x k || (s.course (courseOf x)).sending.contains k

/-- A context's slot passes to its send, to be released or returned with the completion (R358). -/
def State.giveSlot (s : State) (x : CtxId) (k : Nat) : State :=
  if (s.ctx x).slot = some k then s.onCtx x fun c => { c with slot := none } else s

/-- SEND of a kind: 0 plain, 1 one-step, 2 launch-time (R320, R357, R358, R369). -/
def State.sendOp (s : State) (x : CtxId) (f : Fields) (kind : Nat) : State :=
  let g := s.ctx x
  let a := g.r f.srca.toNat
  let legal := f.w == 1 && f.mode.toNat % 4 != 3 && decide (fld a 12 5 < 24) && (kind == 0 || f.srcb.toNat % 8 == 0) && (kind != 2 || chordOk f.dst 4)
  s.issue x f 1 legal fun t0 =>
    let c := courseOf x
    let k := g.pw.toNat / 2048
    let t := t0
    if !t.mayUse x k then .fault Flt.mem
    else if 4 ≤ g.sends then .hold .own
    else if (t.ownJobs x).any (fun j => meets j.writes (k * 2048, 2048)) then .hold .own
    else
      let spec := if kind = 0 then [] else g.rd f.srcb.toNat 7
      let e : Send :=
        { course := c, x := some (x, g.item), ring := none, slot := k, own := g.slot == some k,
          port := Fin.ofNat 24 (fld a 12 5), len := fld a 0 12, kind := kind, spec := spec,
          report := if kind = 0 then bitOf f.imm 18 else bitOf (spec.getD 6 0) 16,
          notify := bitOf f.imm 19 || kind == 2, tag := BitVec.ofNat 32 (fld f.imm 0 12),
          target := if kind = 2 then BitVec.ofNat 80 (g.chord f.dst.toNat 4) else 0 }
      let t1 := (t.onCtx x fun v => { v with sends := v.sends + 1 }).strEvent (strOf x) 9 1
      .go false ((t1.giveSlot x k).startSend e)

/-- SEND, plain. -/
def execSendPlain (x : CtxId) (f : Fields) (s : State) : Host.Outcome State Fault Refusal := .next (s.sendOp x f 0)
/-- SEND, one-step. -/
def execSendOneStep (x : CtxId) (f : Fields) (s : State) : Host.Outcome State Fault Refusal := .next (s.sendOp x f 1)
/-- SEND, launch-time. -/
def execSendLaunch (x : CtxId) (f : Fields) (s : State) : Host.Outcome State Fault Refusal := .next (s.sendOp x f 2)

/-- PUNT (R290, R359): the descriptor is G52 to G63 as they stand; a receive slot passes to the punt. -/
def execPunt (x : CtxId) (f : Fields) (s : State) : Host.Outcome State Fault Refusal :=
  .next (s.issue x f 1 (f.w == 1) fun t =>
    let c := courseOf x
    let g := t.ctx x
    let k := g.pw.toNat / 2048
    let n := fld (g.r 56) 0 12
    if !t.mayWindow x k || 2048 < n then .fault Flt.mem
    else
      let (bs, t1) := t.bufBytes c g.pw.toNat n
      let u : Punt := { ring := Fin.ofNat 8 (fld f.imm 0 3), desc := Vector.ofFn fun i => g.r (52 + i.val), frame := bs,
                        slot := if g.slot = some k then some k else none }
      let t2 := t1.giveSlot x k
      match t.badByte c g.pw.toNat n with
      | some b => .go false ((t2.eccHw .packetBuffer c.val b).puntDrop c u)
      | none => .go false (t2.onCourse c fun v => { v with punts := v.punts ++ [u] }))

/-- DROP (R359): the descriptor's slot is released when the context still owns it. -/
def execDrop (x : CtxId) (f : Fields) (s : State) : Host.Outcome State Fault Refusal :=
  .next (s.issue x f 1 (f.w == 1) fun t =>
    match (t.ctx x).slot with
    | some k => .go false ((t.freeSlot (courseOf x) k).onCtx x fun c => { c with slot := none })
    | none => .go false t)

/-! ### Completions -/

/-- The statuses whose completion releases the slot: OK, NO_TUNING, ABORT (R293). -/
def statusFrees (status : Nat) : Bool := decide (status ≤ 2)

/-- A slot after a completion that leaves it owned (R293, R325, R358): back to the context while its work item runs, else
released. -/
def State.returnSlot (s : State) (e : Send) : State :=
  match e.x with
  | some (x, item) =>
    if (s.ctx x).item = item then s.onCtx x fun c => { c with slot := some e.slot } else s.freeSlot e.course e.slot
  | none => s.freeSlot e.course e.slot

/-- What a completion does to its slot (R280, R293). SLOT_BUSY leaves the outstanding send of the slot as it is. -/
def State.settleSlot (s : State) (u : Sent) : State :=
  let e := u.send
  let st := u.d.status
  let s1 := if st = 9 then s else s.onCourse e.course fun v => { v with sending := v.sending.erase e.slot }
  if e.own then (if statusFrees st || e.ring.isSome then s1.freeSlot e.course e.slot else s1.returnSlot e) else s1

/-- Bytes of a number, least significant first. -/
def leBytes : Nat → Nat → List Byte
  | 0, _ => []
  | n + 1, v => BitVec.ofNat 8 v :: leBytes n (v / 256)

/-- Bytes 16 to 31 of a transmit-ring entry (R514). -/
def ringCompletion (report : Bool) (d : Done) : List Byte :=
  let t := if report && d.status == 0 then d.t.toNat else 0
  [BitVec.ofNat 8 d.status, BitVec.ofNat 8 (1 + d.tg.toNat * 2 + d.calw.toNat * 4 + d.perNom.toNat * 8), 0, 0] ++ leBytes 10 t ++
    [0, 0]

/-- A completion of an entry of transmit ring t waits to be written (R515). -/
def State.ringDone (s : State) (t : RingId) (j : Nat) (bs : List Byte) : State :=
  { s with txRings := vset s.txRings t { s.txRings.get t with wait := (s.txRings.get t).wait ++ [(j, bs)] } }

/-- A completion told to the context that sent it (R320, R325). -/
def State.tellSender (s : State) (x : CtxId) (item : Nat) (notify : Bool) (d : Done) : State :=
  let s1 := if d.status = 3 then s.strEvent (strOf x) 10 1 else s
  let s2 := (s1.onCtx x fun v => { v with sends := v.sends - 1 }).unstall x
  if (s2.ctx x).item = item && notify then s2.queueDone x d else s2

/-- SEND_COMPLETE (R293, R320, R325, R358): the first send of the course that has ended completes: its slot is settled, its
context is told where the send asked for it or was launch-time, and a ring's entry waits for its completion to be written
(R515). -/
def execSendComplete (c : CourseId) (s : State) : Host.Outcome State Fault Refusal :=
  .next (
    match (s.course c).sent with
    | u :: us =>
      let s1 := (s.onCourse c fun v => { v with sent := us }).settleSlot u
      let d := { u.d with at_ := s1.nut }
      let s2 :=
        match u.send.x, u.send.ring with
        | some (x, item), _ => s1.tellSender x item u.send.notify d
        | none, some (t, j) => s1.ringDone t j (ringCompletion u.send.report d)
        | none, none => s1
      s2.unstallSlot c u.send.slot
    | [] => s)

end Sys2Proof.Machine
end

