-- ==== Sys2Proof/Machine/HostOps.lean ====
section
/-! DEFINITION. The DMA rings: receive records (R512, R513, R117), control writes (R516), and transmit entries (R514, R515). -/

namespace Sys2Proof.Machine

/-- DMA may start (R503): the host is up, Bus Master Enable is 1 in D0, and the PCIe island's crossing is not void. -/
def State.dmaUp (s : State) : Bool :=
  s.hostUp && s.rBit Reg.devPcieStat 18 && s.rFld Reg.devPcieStat 9 2 == 0 && !s.isVoid 49

/-- A 64-bit host address from its four words, bits [11:0] taken as 0 (R520). -/
def State.hostBase (s : State) (a : Nat) : Nat := s.regN a 4 % 2 ^ 64 / 4096 * 4096

/-- Bytes written to host memory from an address on. -/
def State.hostStore (s : State) (a : Nat) (bs : List Byte) : State := { s with hostMem := s.hostMem.writes a bs }

/-- Bytes padded with zeros to a 16-byte unit (R512). -/
def padUnit (bs : List Byte) : List Byte := bs ++ List.replicate ((16 - bs.length % 16) % 16) 0

/-- A pick entry's record (R117). -/
def pickRecord (e : Nat) (p : Nat) : List Byte := leBytes 10 (e % 2 ^ 80) ++ leBytes 3 (e / 2 ^ 80) ++ [BitVec.ofNat 8 p, 0, 0]

/-- A punt's record (R512). -/
def puntRecord (c : Nat) (lost : Bool) (desc : List Word) (frame : List Byte) : List Byte :=
  leBytes 2 frame.length ++ [BitVec.ofNat 8 c, BitVec.ofNat 8 lost.toNat] ++ List.replicate 11 0 ++ [1] ++
    desc.flatMap (fun w => leBytes 4 w.toNat) ++ padUnit frame

/-- SZ of a receive ring, and its units. -/
def State.rxSize (s : State) (r : RingId) : Nat := 2 ^ s.rFld (Reg.devRxCtrl r) 0 5

/-- The byte offset of the next record of a receive ring (R513). -/
def State.rxOff (s : State) (r : RingId) : Nat := (s.reg (Reg.devRxWr r)).toNat * 16 % s.rxSize r

/-- The pad that a record of `n` bytes needs before it (R513). -/
def State.rxPad (s : State) (r : RingId) (n : Nat) : Nat :=
  if s.rxSize r < s.rxOff r + n then s.rxSize r - s.rxOff r else 0

/-- A receive ring takes a record of `n` bytes (R503, R513, R516). -/
def State.rxRoom (s : State) (r : RingId) (n : Nat) : Bool :=
  let used := ((s.reg (Reg.devRxWr r)) - (s.reg (Reg.devRxRd r))).toNat
  s.dmaUp && s.rBit (Reg.devRxCtrl r) 19 && decide (16 * used + n + s.rxPad r n ≤ s.rxSize r)

/-- A record written to a receive ring, with the pad it needs (R512, R513): the bytes of a pad beyond its first unit are
free. -/
def State.rxWrite (s : State) (r : RingId) (bs : List Byte) : State :=
  let base := s.hostBase (Reg.devRxBase r)
  let off := s.rxOff r
  let pad := s.rxPad r bs.length
  let s1 :=
    if pad = 0 then s
    else
      let (v, t) := s.free (8 * (pad - 16))
      t.hostStore (base + off) (leBytes 4 pad ++ List.replicate 11 0 ++ [2] ++ leBytes (pad - 16) v.toNat)
  let s2 := s1.hostStore (base + (if pad = 0 then off else 0)) bs
  (s2.setReg (Reg.devRxWr r) (s2.reg (Reg.devRxWr r) + BitVec.ofNat 20 ((pad + bs.length) / 16))).orReg Reg.devHostCause
    (BitVec.ofNat 20 (2 ^ (8 + r.val)))

/-- A punt record offered to its ring (R290, R512, R424): written with LOST where records were dropped, or dropped. -/
def State.puntOffer (s : State) (c : CourseId) (u : Punt) : State :=
  let bs := puntRecord c.val (s.rxLost.get u.ring) u.desc.toList u.frame
  if s.rxRoom u.ring bs.length then
    let s1 := (s.rxWrite u.ring bs).crsEvent c 3 (some u.ring.val) 1
    let s2 := { s1 with rxLost := vset s1.rxLost u.ring false }
    match u.slot with
    | some k => s2.freeSlot c k
    | none => s2
  else s.puntDrop c u

/-! ### Control writes (R516, R520) -/

/-- DEV_HOST_CAUSE.CFG_ERR. -/
def State.hostRefuse (s : State) : State := s.orReg Reg.devHostCause 0x80000

/-- A write of DEV_RXr_CTRL (R516). -/
def State.rxCtrlWrite (s : State) (r : RingId) (v : Word) : State :=
  let on := s.rBit (Reg.devRxCtrl r) 19
  if on then (if bitOf v 19 then s.hostRefuse else s.setBit (Reg.devRxCtrl r) 19 false)
  else if fld v 0 5 < 12 || 23 < fld v 0 5 then s.hostRefuse
  else
    let s1 := s.setReg (Reg.devRxCtrl r) (v &&& 0x8001F)
    if bitOf v 19 then (s1.setReg (Reg.devRxWr r) 0).setReg (Reg.devRxRd r) 0 else s1

/-- A write of DEV_TXt_CTRL (R516). -/
def State.txCtrlWrite (s : State) (t : RingId) (v : Word) : State :=
  let on := s.rBit (Reg.devTxCtrl t) 19
  if on then (if bitOf v 19 then s.hostRefuse else s.setBit (Reg.devTxCtrl t) 19 false)
  else if fld v 0 4 < 4 || 12 < fld v 0 4 then s.hostRefuse
  else
    let s1 := s.setReg (Reg.devTxCtrl t) (v &&& 0x8000F)
    if bitOf v 19 then
      let s2 := ((s1.setReg (Reg.devTxTail t) 0).setReg (Reg.devTxHead t) 0).setReg (Reg.devTxDone t) 0
      { s2 with txRings := vset s2.txRings t TxRing.cold }
    else s1

/-- A write of DEV_TXt_TAIL (R515): one that would put more than 2^SZ entries past DONE is refused. -/
def State.tailWrite (s : State) (t : RingId) (v : Word) : State :=
  let tail := fld v 0 16
  if 2 ^ s.rFld (Reg.devTxCtrl t) 0 4 < (tail + 65536 - s.rFld (Reg.devTxDone t) 0 16) % 65536 then s.hostRefuse
  else s.setReg (Reg.devTxTail t) (BitVec.ofNat 20 tail)

/-! ### Transmit rings (R291, R514, R515) -/

/-- The course that transmit ring t feeds (R291). -/
def ringCourse (t : RingId) : CourseId := ⟨t.val / 2, by omega⟩

/-- A completion of an entry that never became a send. -/
def ringError (status : Nat) : Done :=
  { at_ := 0, crypto := false, status := status, slot := false, tag := 0, t := 0, tg := false, calw := false, perNom := false,
    gen := 0, late := 0 }

/-- The course serves its rings (R291): neither in course reset nor powered down. -/
def State.ringServed (s : State) (t : RingId) : Bool := s.crsState (ringCourse t) != CS.reset

/-- The next entry of a ring may be taken (R503, R515). -/
def State.mayFetch (s : State) (t : RingId) : Bool :=
  let h := s.rFld (Reg.devTxHead t) 0 16
  let tail := s.rFld (Reg.devTxTail t) 0 16
  s.dmaUp && s.rBit (Reg.devTxCtrl t) 19 && s.ringServed t && h != tail &&
    decide ((tail + 65536 - s.rFld (Reg.devTxDone t) 0 16) % 65536 ≤ 2 ^ s.rFld (Reg.devTxCtrl t) 0 4)

/-- A taken entry whose frame is in a slot: a plain send (R291). -/
def State.ringSend (s : State) (t : RingId) (j slot : Nat) (e : TxEntry) : State :=
  s.startSend
    { course := ringCourse t, x := none, ring := some (t, j), slot := slot, own := true,
      port := Fin.ofNat 24 e.port.toNat, len := e.len.toNat, kind := 0, spec := [], report := e.report, notify := false,
      tag := e.tag, target := 0 }

/-- DONE over the longest run of completed entries (R515). -/
def doneRun (comp : List Nat) : Nat → Nat → Nat
  | 0, d => d
  | k + 1, d => if comp.contains d then doneRun comp k ((d + 1) % 65536) else d

/-- A completion written to its entry, and DONE advanced (R515). -/
def State.ringWrite (s : State) (t : RingId) (j : Nat) (bs : List Byte) : State :=
  let x := s.txRings.get t
  let sz := 2 ^ s.rFld (Reg.devTxCtrl t) 0 4
  let s1 := s.hostStore (s.hostBase (Reg.devTxBase t) + 32 * (j % sz) + 16) bs
  let comp := j :: x.comp
  let d := s.rFld (Reg.devTxDone t) 0 16
  let n := doneRun comp comp.length d
  let rest := comp.filter fun k => (k + 65536 - d) % 65536 ≥ (n + 65536 - d) % 65536
  let s2 := { s1 with txRings := vset s1.txRings t { x with comp := rest } }
  if n = d then s2
  else (s2.setReg (Reg.devTxDone t) (BitVec.ofNat 20 n)).orReg Reg.devHostCause (BitVec.ofNat 20 (2 ^ t.val))

/-! ### Key slots (R517, R518) -/

/-- The first `n` key bytes of the staging words (R517). -/
def State.stagedKey (s : State) (n : Nat) : List Byte :=
  ((List.range 32).flatMap fun i =>
    let w := s.rFld (Reg.keyStage i) 0 16
    [BitVec.ofNat 8 (w / 256), BitVec.ofNat 8 w]).take n

/-- Every KEY_STAGE word 0 (R517, R518). -/
def State.clearStage (s : State) : State := s.clearRegs (Reg.keyStage 0) (Reg.keyStage 32)

/-- The bytes that a KEY_CMD's KIND takes; none for a KIND or LEN that R518 refuses. -/
def keyTake (kind len : Nat) : Option Nat :=
  match kind with
  | 0 => some 0
  | 1 => some 16
  | 2 => some 32
  | 3 => some 32
  | 4 => if 1 ≤ len ∧ len ≤ 64 then some len else none
  | _ => none

/-- A write of KEY_CMD (R517, R518). -/
def State.keyCmdWrite (s : State) (kind len slot : Nat) : State :=
  match keyTake kind len, s.powered 9 with
  | some n, true =>
    let ks := if kind = 0 then Sparse.erase s.keys slot else Sparse.insert s.keys slot { kind := kind, bytes := s.stagedKey n }
    { s with keys := ks }.clearStage
  | _, _ => s.clearStage.orReg Reg.devHostCause 0x40000

end Sys2Proof.Machine
end

