-- ==== Sys2Proof/Machine/Panel.lean ====
section
/-! DEFINITION. The panel's commands: keys, antenna sense and the event queue (R521 to R529). -/

namespace Sys2Proof.Machine

/-- A key's sample (R521): `p` is 1 where the key is pressed. The state changes after DEB disagreeing samples. -/
def State.keySample (s : State) (k : Fin 8) (p : Bool) : State × List Nat × List Nat :=
  let x := s.panel.keys.get k
  let cur := s.rBit Reg.pnlKeys k
  if p = cur then
    ({ s with panel := { s.panel with keys := vset s.panel.keys k { x with run := 0 } } }, [], [])
  else if x.run + 1 < s.rFld Reg.pnlCtrl 8 8 then
    ({ s with panel := { s.panel with keys := vset s.panel.keys k { x with run := x.run + 1 } } }, [], [])
  else
    let d := if p then some s.nut else none
    let s1 := { s with panel := { s.panel with keys := vset s.panel.keys k { run := 0, down := d } } }
    (s1.setBit Reg.pnlKeys k p, if p then [Ev.keyDown k] else [], if p then [] else [Ev.keyUp k])

/-- The samples of every key, with the events they queue: presses first, then releases (R528). -/
def State.keySamples (s : State) (levels : Byte) : State × List Nat × List Nat :=
  (List.finRange 8).foldl (fun (u, ds, us) k =>
    let (v, d, r) := u.keySample k (!levels.getLsbD k)
    (v, ds ++ d, us ++ r)) (s, [], [])

/-- KEY_SAMPLE (R521): on each tick whose nut value is a multiple of 1 ms. -/
def execKeySample (levels : Byte) (s : State) : Host.Outcome State Fault Refusal :=
  .next (
    if s.nutRun && s.nut.toNat % 65536000000 == 0 then
      let (u, ds, us) := s.keySamples levels
      (u.setFld Reg.pnlKeys 8 8 (~~~levels).toNat).panelEvents (ds ++ us)
    else s)

/-- KEY_LONG_EXPIRY (R522): a key pressed for PNL_LONG ms queues KEY_LONG once. -/
def execKeyLongExpiry (k : Fin 8) (s : State) : Host.Outcome State Fault Refusal :=
  .next (
    let x := s.panel.keys.get k
    match x.down with
    | some t =>
      if reached s.nut (t + msNut (s.rFld Reg.pnlLong 0 14)) then
        ({ s with panel := { s.panel with keys := vset s.panel.keys k { x with down := none } } }).panelEvent (Ev.keyLong k)
      else s
    | none => s)

/-- A debouncer's next sample: the level changes after `n` disagreeing samples in a row (R277, R525). -/
def Deb.sample (d : Deb) (v : Bool) (n : Nat) : Deb :=
  if v = d.level then { d with run := 0 }
  else if d.run + 1 < n then { d with run := d.run + 1 }
  else { level := v, run := 0 }

/-- ANT_SAMPLE (R525): ANT_OPEN and ANT_SHORT with 10 equal samples; a change of STATE queues its event. -/
def execAntSample (opn short : Bool) (s : State) : Host.Outcome State Fault Refusal :=
  .next (
    let o := s.panel.antO.sample opn 10
    let h := s.panel.antS.sample short 10
    let st := if h.level then 2 else if o.level then 1 else 0
    let s1 := { s with panel := { s.panel with antO := o, antS := h } }
    if st = s1.rFld Reg.pnlAnt 18 2 then s1 else (s1.setFld Reg.pnlAnt 18 2 st).panelEvent (Ev.ant st))

/-- PANEL_EVT_POP (R529): a host read of PNL_EVT0 moves the head entry into the read shadow; zeros when none. -/
def execPanelEvtPop (s : State) : Host.Outcome State Fault Refusal :=
  .next (
    if s.hostReads Reg.pnlEvt then
      match s.panel.queue with
      | e :: q => ({ s with panel := { s.panel with queue := q } }).latch Reg.pnlEvt 5 e.toNat
      | [] => s.latch Reg.pnlEvt 5 0
    else s)

/-- A touch pad's measurement (R523, R524): `c` is the charge time, 0xF_FFFF where no crossing came. -/
def State.touchUpdate (s : State) (p : Fin 4) (c : Word) : State :=
  let x := s.panel.pads.get p
  let on := s.rBit Reg.pnlTouchStat p
  let put := fun (u : State) (y : Pad) => { u with panel := { u.panel with pads := vset u.panel.pads p y } }
  if c = 0xFFFFF then
    let y := { x with bad := min 8 (x.bad + 1) }
    if x.bad + 1 = 8 then
      let s1 := (put s { y with onRun := 0, offRun := 0, based := false }).setBit Reg.pnlTouchStat (4 + p) true
      let s2 := s1.orReg Reg.pnlCause 0x20000
      if on then (s2.setBit Reg.pnlTouchStat p false).panelEvent (Ev.touchOff p) else s2
    else put s y
  else
    let s0 := s.setBit Reg.pnlTouchStat (4 + p) false
    if !x.based then (put s0 { x with onRun := 0, offRun := 0, bad := 0, based := true }).setReg (Reg.pnlTbase p) c
    else
      let b : Int := (s.reg (Reg.pnlTbase p)).toNat
      let d := (c.toNat : Int) - b
      let hi := decide (((s.rFld Reg.pnlTouchThr 10 10 : Nat) : Int) ≤ d)
      let lo := decide (d < ((s.rFld Reg.pnlTouchThr 0 10 : Nat) : Int))
      let onR := if hi then x.onRun + 1 else 0
      let offR := if lo then x.offRun + 1 else 0
      if on then
        if offR = 8 then
          ((put s0 { x with onRun := 0, offRun := 0, bad := 0 }).setBit Reg.pnlTouchStat p false).panelEvent (Ev.touchOff p)
        else put s0 { x with onRun := 0, offRun := offR, bad := 0 }
      else if onR = 8 then
        ((put s0 { x with onRun := 0, offRun := 0, bad := 0 }).setBit Reg.pnlTouchStat p true).panelEvent (Ev.touchOn p)
      else
        (put s0 { x with onRun := onR, offRun := 0, bad := 0 }).setReg (Reg.pnlTbase p)
          (BitVec.ofInt 20 (b + roundHaz d 256))

end Sys2Proof.Machine
end

