-- ==== Sys2Proof/Machine/PortOps.lean ====
section
/-! DEFINITION. Operations of the port commands: the SyncE-recovery inputs (R168), I2C (R278), the fill stage (R87, R95 to
R102), and bandwidth windows (R426). -/

namespace Sys2Proof.Machine

/-- LOS raised on an FMU (R168): its gate is flagged, and slots see it. FMU0 to FMU3 queue a panel event. -/
def State.fmuLost (s : State) (u : FmuId) : State :=
  if s.rBit (Reg.brgFmuStat u) 19 then s
  else
    let s1 := ((s.setBit (Reg.brgFmuStat u) 19 true).gateLos (.fmu u)).rsLos
    if u.val < 4 then s1.panelEvent (Ev.finLos u) else s1

/-- The recovered clock of port p is gone for the FMUs that take it (R168). -/
def State.recoveryLost (s : State) (p : PortId) : State :=
  foldFin 8 (fun u t =>
    if decide (4 ≤ u.val) && t.rBit (Reg.brgFmuCtrl u) 19 && t.rFld (Reg.brgFmuCtrl u) 3 5 == p.val then t.fmuLost u else t) s

/-- A host write of PRT_CTRL with what the port's loss of lock means to the FMUs (R168, R273, R274). -/
def State.portCtrl (s : State) (p : PortId) (v : Word) : State :=
  let s1 := s.prtCtrlWrite p v
  if s1.rBit (Reg.prtStat p) 18 then s1 else s1.recoveryLost p

/-! ### I2C (R278) -/

/-- The I2C bus of a port. -/
def busOf (p : PortId) : Fin 4 := ⟨p.val / 6, by omega⟩

/-- A command of a port ends (R278): BUSY clears, NACK and ABSENT show how, I2C_DONE is set. -/
def State.i2cEnd (s : State) (p : PortId) (nack absent : Bool) : State :=
  (((s.setBit (Reg.prtI2cCmd p) 17 false).setBit (Reg.prtI2cCmd p) 16 nack).setBit (Reg.prtI2cCmd p) 15 absent).orReg
    (Reg.prtCause p) 0x20000

/-- The transaction of a port's command (R278): the CHANNEL byte to the bus switch, unless MUX_ADDR is 0; then the module, addressed at
0x50 or 0x51 with its register offset, and the bytes written or read, the first of them from DATA[15:8]. -/
def State.i2cMsgs (s : State) (p : PortId) : List I2cMsg :=
  let mux := s.reg (Reg.prtI2cMux p)
  let w := s.reg (Reg.prtI2cCmd p)
  let n := if bitOf w 14 then 2 else 1
  let dev := if bitOf w 13 then 0x51 else 0x50
  let data := (beBytes 2 (s.rFld (Reg.prtI2cData p) 0 16)).take n
  let reg := beBytes 1 (fld w 0 8)
  (if fld mux 8 7 = 0 then [] else [{ addr := fld mux 8 7, put := beBytes 1 (fld mux 0 8), get := 0 }]) ++
    [if bitOf w 18 then { addr := dev, put := reg, get := n } else { addr := dev, put := reg ++ data, get := 0 }]

/-- The port's command takes its bus (R278). -/
def State.i2cStart (s : State) (p : PortId) : State :=
  let r : I2cRun := { port := p, msgs := s.i2cMsgs p, fast := s.rBit (Reg.prtI2cMux p) 15 }
  { s with i2cRun := vset s.i2cRun (busOf p) (some r) }

/-- The port whose command runs on a bus. -/
def State.i2cOwner (s : State) (b : Fin 4) : Option PortId := (s.i2cRun.get b).map I2cRun.port

/-- A free bus starts the waiting command of its lowest-numbered port; one to an absent module ends at once (R278). -/
def State.i2cNext (s : State) (b : Fin 4) : State :=
  (List.finRange 24).foldl (fun u (p : PortId) =>
    if p.val / 6 == b.val && (u.i2cRun.get b).isNone && u.rBit (Reg.prtI2cCmd p) 17 then
      if u.rBit (Reg.prtStat p) 16 then u.i2cStart p else u.i2cEnd p false true
    else u) s

/-- A write of PRT_I2C_CMD (R278): ignored while BUSY; with GO a command is issued. -/
def State.i2cCmd (s : State) (p : PortId) (v : Word) : State :=
  if s.rBit (Reg.prtI2cCmd p) 17 then s
  else
    let keep := s.reg (Reg.prtI2cCmd p) &&& 0x18000
    let s1 := s.setReg (Reg.prtI2cCmd p) ((v &&& 0x460FF) ||| keep)
    if !bitOf v 19 then s1
    else if !s1.rBit (Reg.prtStat p) 16 then s1.i2cEnd p false true
    else
      (((s1.setBit (Reg.prtI2cCmd p) 16 false).setBit (Reg.prtI2cCmd p) 15 false).setBit (Reg.prtI2cCmd p) 17 true).i2cNext
        (busOf p)

/-- The running command of a port's bus ends, and the next one starts (R278). -/
def State.i2cFinish (s : State) (p : PortId) (nack : Bool) : State :=
  if s.i2cOwner (busOf p) = some p then
    (({ s with i2cRun := vset s.i2cRun (busOf p) none }).i2cEnd p nack false).i2cNext (busOf p)
  else s

/-! ### The fill stage -/

/-- A queued or launch frame leaves its queue for the fill stage: what departs first goes ahead (R292, R295). -/
def State.takeFill (s : State) (p : PortId) : Option (Send × State) :=
  match (s.port p).depart with
  | e :: es => some (e, s.onPort p fun y => { y with depart := es })
  | [] =>
    if !(s.port p).stage.isEmpty then none
    else
      match s.nextQueued p with
      | some (c, e) => some (e, s.onPort p fun y =>
          { y with queues := vset y.queues c (y.queues.get c).tail, turn := c.val })
      | none => none

/-- What a send's completion carries once its frame has been stamped (R102): the stamp with its flags. -/
def fillDone (e : Send) (t : Nut) (tg calw per : Bool) : Done :=
  let rep := e.report || e.kind == 2
  { at_ := 0, crypto := false, status := 0, slot := false, tag := BitVec.ofNat 12 e.tag.toNat,
    t := if rep then t else 0, tg := rep && tg, calw := rep && calw, perNom := rep && per, gen := 0, late := 0 }

/-- A frame's departure is to be converted and its tuning is disabled (R100). -/
def State.fillNoTun (s : State) (f : Filling) : Bool :=
  let x := specOf f.send.spec
  f.conv.isSome && x.fmt != 0 && !s.tunOn x.tun

/-- The departure converted (R96, R97, R99, R100, R102): the time fields, the checksum repair, GEN and the status. -/
def State.convert (s : State) (p : PortId) (f : Filling) : Filling :=
  match f.conv with
  | none => f
  | some t =>
    let x := specOf f.send.spec
    { f with
      bytes := repair x f.bytes (s.writeFields p x t f.bytes), conv := none
      d := { f.d with status := if s.fillNoTun f then 1 else 0,
                      gen := if x.fmt = 0 then 0 else BitVec.ofNat 8 (s.rFld (Reg.tunStatus x.tun) 0 8) } }

/-- The end of a tick for a port's fill stage: every departure taken on the tick is converted, with the anchors in effect on it (R97). -/
def State.convertFills (s : State) (p : PortId) : State :=
  let fs := (s.port p).fill
  if fs.any fun f => f.conv.isSome then
    let s1 := s.onPort p fun y => { y with fill := fs.map (s.convert p) }
    match (fs.filter s.fillNoTun).length with
    | 0 => s1
    | k => (s1.setBit (Reg.fretStat p) 14 true).addSat (Reg.fretNotunCnt p) k
  else s

/-- A frame enters the fill stage (R87, R96 to R98): the stamp; its departure is converted at the end of the tick (R97). -/
def State.fillFrame (s : State) (p : PortId) (e : Send) (m : LineMark) : State :=
  let a := e.slot * 2048
  match s.badByte e.course a e.len with
  | some b =>
    (s.eccHw .packetBuffer e.course.val b).abortSend e
  | none =>
    let (raw, s1) := s.bufBytes e.course a e.len
    let bs := raw ++ List.replicate (60 - e.len) 0
    let x := specOf e.spec
    let spec : Bool := e.kind ≠ 0
    if spec && x.bad bs.length then
      ((s1.endWith e 7).setBit (Reg.fretStat p) 15 true).addSat (Reg.fretSpecCnt p) 1
    else
      let (t, tg, calw, per) := s1.txStamp p m
      let s2 := s1.capture (txLine p) m.code (s1.fretNut p)
      let f : Filling := { send := e, bytes := bs, d := fillDone e t tg calw per, conv := if spec then some t else none }
      s2.onPort p fun y => { y with fill := y.fill ++ [f] }

/-! ### Bandwidth windows (R426) -/

/-- LEN of a port's window in nut units. -/
def State.bwSpan (s : State) (p : PortId) : Nut := msNut (s.rFld (Reg.pmcPrtBw p) 0 14)

/-- A counter that a window writes: its OVF is always 0. -/
def State.putCnt (s : State) (n v : Nat) : State := s.setCnt n { val := BitVec.ofNat 60 v, ovf := false }

/-- The totals of a completed window written (R426). -/
def State.writeWindow (s : State) (p : PortId) : State :=
  let w := (s.port p).sums
  let len : Nat := s.rFld (Reg.pmcPrtBw p) 0 14
  let rate := fun (b : Nat) => (roundHaz ((b * 8000 : Nat) : Int) (len : Int)).toNat
  let s1 := (((s.putCnt (Cnt.prt p 4) w.rxB).putCnt (Cnt.prt p 5) w.rxF).putCnt (Cnt.prt p 6) w.txB).putCnt (Cnt.prt p 7) w.txF
  ((s1.putCnt (Cnt.prt p 8) (rate w.rxB)).putCnt (Cnt.prt p 9) (rate w.txB)).onPort p fun y =>
    { y with sums := BwSums.zero, bwFrom := s1.nut }

/-- The bandwidth window starts afresh at the next aligned boundary, with its counters at 0 (R426). -/
def State.restartBw (s : State) (p : PortId) : State :=
  let l := (s.bwSpan p).toNat
  let from_ : Nut := BitVec.ofNat 80 ((s.nut.toNat / l + 1) * l)
  let s1 := (List.range 6).foldl (fun u k => u.putCnt (Cnt.prt p (4 + k)) 0) s
  s1.onPort p fun y => { y with sums := BwSums.zero, bwFrom := from_ }

/-- The byte and frame counters of a port are to be cleared (R431). -/
def State.clearPrtCnt (s : State) (p : PortId) : State :=
  s.offerCnt (Reg.pmcPrtBw p) ((List.range 4).map (Cnt.prt p)) (s.reg (Reg.pmcPrtBw p))

/-- A write of PMC_PRT_BW (R426, R431): CLR clears the byte and frame counters; a legal LEN restarts the window. -/
def State.prtBwWrite (s : State) (p : PortId) (v : Word) : State :=
  let s1 := if bitOf v 19 then s.clearPrtCnt p else s
  let len := fld v 0 14
  if len = 0 || 10000 < len then s1.setBit (Reg.prtCtrl p) 11 true
  else (s1.setReg (Reg.pmcPrtBw p) (BitVec.ofNat 20 len)).restartBw p

end Sys2Proof.Machine
end

