-- ==== Sys2Proof/Machine/Picks.lean ====
section
/-! DEFINITION. The commands of picks, regression units, house channels and FMUs (R108 to R130, R167, R168). -/

namespace Sys2Proof.Machine

/-! ### Edges -/

/-- PICK_EDGE (R66 to R68, R72, R108, R111 to R114, R119, R121, R162): an active edge at a pick's input on this tick. -/
def execPickEdge (p : PickId) (rising : Bool) (codeA codeB : Option Capture) (s : State) : Host.Outcome State Fault Refusal :=
  .next (
    if s.nutRun then
      let (s1, st) := s.pickEdgeIn p rising codeA codeB
      let s2 := match st with
        | some x => s1.ppsStamp p x
        | none => s1
      if s.rBit (Reg.pickStat p) 19 then s2.rsLos else s2
    else s)

/-- PICK_CTRL_WRITE (R110). -/
def execPickCtrlWrite (p : PickId) (v : Word) (s : State) : Host.Outcome State Fault Refusal :=
  .next (s.hostWrite (Reg.pickCtrl p) fun t => t.pickCtrlWrite p v)

/-- PICK_LOS_TIMEOUT (R111, R169, R441, R526): LOS rises while the pick is enabled. -/
def execPickLosTimeout (p : PickId) (s : State) : Host.Outcome State Fault Refusal :=
  .next (
    if s.rBit (Reg.pickCtrl p) 19 && !s.rBit (Reg.pickStat p) 19 && s.pickSilent p then
      let s1 := (s.setBit (Reg.pickStat p) 19 true).gateLos (.pick p)
      ((s1.setBit (Reg.irqGrp 10) (8 + p.val) true).panelEvent (Ev.pickLos p)).rsLos
    else s)

/-! ### The queue and its drain (R115 to R118) -/

/-- The head entry of a pick's queue is damaged (R454): `addr` counts words from the head (DESIGN CHOICE,
notes/assumptions/41.md). -/
def State.headBad (s : State) (p : PickId) : Bool := s.bad.any fun e => e.1 == .pickQueue && e.2.1 == p.val && decide (e.2.2 < 5)

/-- The head entry leaves the queue. -/
def State.dropHead (s : State) (p : PickId) : State :=
  let x := s.picks.get p
  let bad := (s.bad.filter fun e => !(e.1 == .pickQueue && e.2.1 == p.val && decide (e.2.2 < 5))).map fun e =>
    if e.1 == .pickQueue && e.2.1 == p.val then (e.1, e.2.1, e.2.2 - 5) else e
  { s.setPick p { x with queue := x.queue.tail } with bad := bad }

/-- A damaged head entry discarded and counted; the next entry carries OVF (R454). -/
def State.discardHead (s : State) (p : PickId) : State :=
  let a := ((s.bad.find? fun e => e.1 == .pickQueue && e.2.1 == p.val && decide (e.2.2 < 5)).map fun e => e.2.2).getD 0
  let s1 := ((s.eccHw .pickQueue p.val a).dropHead p).addSat (Reg.pickQdrop p) 1
  let x := s1.picks.get p
  match x.queue with
  | e :: es => s1.setPick p { x with queue := (e ||| (0x8000 : BitVec 100) <<< 80) :: es }
  | [] => s1.setPick p { x with ovf := true }

/-- Damaged entries at the head discarded. -/
def State.cleanHead (s : State) (p : PickId) : Nat → State
  | 0 => s
  | k + 1 => if !(s.picks.get p).queue.isEmpty && s.headBad p then (s.discardHead p).cleanHead p k else s

/-- A pick's queue ready to give its head. -/
def State.readyHead (s : State) (p : PickId) : State := s.cleanHead p (s.picks.get p).queue.length

/-- PICK_QPOP (R115): a host read of PICK_QPOP0 removes the head under TARGET NONE; else, and from an empty queue, zeros. -/
def execPickQpop (p : PickId) (s : State) : Host.Outcome State Fault Refusal :=
  .next (
    if s.hostReads (Reg.pickQpop p) then
      if s.rFld (Reg.pickDrain p) 18 2 = 0 then
        let s1 := s.readyHead p
        match (s1.picks.get p).queue with
        | e :: _ => (s1.dropHead p).latch (Reg.pickQpop p) 5 e.toNat
        | [] => s1.latch (Reg.pickQpop p) 5 0
      else s.latch (Reg.pickQpop p) 5 0
    else s)

/-- The course that a pick drains to. -/
def State.drainCourse (s : State) (p : PickId) : CourseId := Fin.ofNat 4 (s.rFld (Reg.pickDrain p) 16 2)

/-- B of a pick's course ring (R116). -/
def State.drainBase (s : State) (p : PickId) : Nat := s.rFld (Reg.pickDrainBase p) 3 16 * 8

/-- A word of a course's data SRAM read by hardware (R116): a damaged one is recorded, and reads a free value (R454; DEDUCED,
notes/assumptions/176.md). -/
def State.hwWord (s : State) (c : CourseId) (a : Nat) : Word × State :=
  if s.bad.contains (.dataSram, c.val, a % 524288) then (s.eccHw .dataSram c.val (a % 524288)).free 20 else s.dataWord c a

/-- The pick reads RD of its course ring (R116, R118). -/
def State.takeRd (s : State) (p : PickId) : State :=
  let (w, s1) := s.hwWord (s.drainCourse p) (s.drainBase p + 1)
  s1.setPick p { s1.picks.get p with rd := BitVec.ofNat 16 w.toNat }

/-- The pick's count of WR taken from word B, and RD read beside it (R116). -/
def State.takeWr (s : State) (p : PickId) : State :=
  let (w, s1) := s.hwWord (s.drainCourse p) (s.drainBase p)
  (s1.setPick p { s1.picks.get p with wr := BitVec.ofNat 16 w.toNat }).takeRd p

/-- A write of PICK_DRAIN (R115, R116, R118, R129). -/
def State.drainWrite (s : State) (p : PickId) (v : Word) : State :=
  let sz := fld v 9 4
  if fld v 18 2 = 3 || sz < 4 || sz = 15 then s.setBit (Reg.pickStat p) 15 true
  else
    let was := s.rFld (Reg.pickDrain p) 18 2
    let s1 := s.setReg (Reg.pickDrain p) (v &&& 0xFFE00)
    if fld v 18 2 = 1 && was != 1 then s1.takeWr p else s1

/-- A write of PICK_DRAIN_BASE (R116). -/
def State.drainBaseWrite (s : State) (p : PickId) (v : Word) : State :=
  let s1 := s.setReg (Reg.pickDrainBase p) (v &&& 0x7FFFF)
  if s1.rFld (Reg.pickDrain p) 18 2 = 1 then s1.takeWr p else s1

/-- PICK_DRAIN_WRITE (R115, R116). -/
def execPickDrainWrite (p : PickId) (base : Bool) (v : Word) (s : State) : Host.Outcome State Fault Refusal :=
  .next (if base then s.hostWrite (Reg.pickDrainBase p) fun t => t.drainBaseWrite p v
    else s.hostWrite (Reg.pickDrain p) fun t => t.drainWrite p v)

/-- DRAIN_STALL of a pick. -/
def State.setStall (s : State) (p : PickId) (b : Bool) : State := s.setBit (Reg.pickStat p) 14 b

/-- The host ring a pick drains to (R117). -/
def State.drainRing (s : State) (p : PickId) : RingId := Fin.ofNat 8 (s.rFld (Reg.pickDrain p) 13 3)

/-- The entries of the course ring (R116). -/
def State.drainSize (s : State) (p : PickId) : Nat := 2 ^ s.rFld (Reg.pickDrain p) 9 4

/-- The course ring takes an entry, by the RD last read (R116, R118). -/
def State.courseTakes (s : State) (p : PickId) : Bool :=
  s.crsState (s.drainCourse p) != CS.reset && s.powered (1 + (s.drainCourse p).val) &&
    decide (((s.picks.get p).wr - (s.picks.get p).rd).toNat < s.drainSize p)

/-- The pick's queue holds an entry that its target cannot take (R118). -/
def State.drainStuck (s : State) (p : PickId) : Bool :=
  !(s.picks.get p).queue.isEmpty &&
    match s.rFld (Reg.pickDrain p) 18 2 with
    | 1 => !s.courseTakes p
    | 2 => !s.rxRoom (s.drainRing p) 16
    | _ => false

/-- DRAIN_STALL shows on every tick whether the pick's drain is stuck (R118). -/
def State.drainStalls (s : State) : State := foldFin 8 (fun (p : PickId) u => u.setStall p (u.drainStuck p)) s

/-- The head entry written to the course ring where there is room (R116, R118): five words, then WR, then pick event p. -/
def State.drainToCourse (s : State) (p : PickId) : State :=
  let c := s.drainCourse p
  let b := s.drainBase p
  let x := s.picks.get p
  match x.queue with
  | e :: _ =>
    if s.courseTakes p then
      let s1 := (s.dropHead p).storeData c (b + 8 + 8 * (x.wr.toNat % s.drainSize p)) (toWords 5 e.toNat)
      let s2 := s1.setPick p { s1.picks.get p with wr := x.wr + 1 }
      (s2.storeData c b [BitVec.ofNat 20 (x.wr + 1).toNat]).raiseEvent c p.val
    else s
  | [] => s

/-- The head entry written to the host ring where there is room (R117, R118). -/
def State.drainToHost (s : State) (p : PickId) : State :=
  match (s.picks.get p).queue with
  | e :: _ =>
    if s.rxRoom (s.drainRing p) 16 then (s.dropHead p).rxWrite (s.drainRing p) (pickRecord e.toNat p.val) else s
  | [] => s

/-- One entry of the queue drained, or DRAIN_STALL where the target cannot take it (R116 to R118). -/
def State.drainOne (s : State) (p : PickId) : State :=
  let s1 := s.readyHead p
  let s2 :=
    match s1.rFld (Reg.pickDrain p) 18 2 with
    | 1 => s1.drainToCourse p
    | 2 => s1.drainToHost p
    | _ => s1
  s2.setStall p (s2.drainStuck p)

/-- PICK_DRAIN_ENTRY (R116 to R118): the pick reads RD before it writes to a course ring. -/
def execPickDrainEntry (p : PickId) (s : State) : Host.Outcome State Fault Refusal :=
  .next (if s.rFld (Reg.pickDrain p) 18 2 = 1 then (s.takeRd p).drainOne p else s.drainOne p)

/-- PICK_DRAIN_POLL (R118): a course drain reads RD again, and goes on where there is room. -/
def execPickDrainPoll (p : PickId) (s : State) : Host.Outcome State Fault Refusal :=
  .next (if s.rFld (Reg.pickDrain p) 18 2 = 1 then (s.takeRd p).drainOne p else s)

/-! ### Intervals (R119, R120) -/

/-- The nut has passed a value. -/
def State.nutPast (s : State) (x : Nut) : Bool := decide (0 < (s.nut - x).toInt)

/-- Four ticks. -/
def fourTicks : Nut := 655360

/-- INTERVAL_PAIR (R119, R120): the oldest stop is paired once the nut passes its stamp plus WIN and 4 ticks. -/
def execIntervalPair (p : PickId) (s : State) : Host.Outcome State Fault Refusal :=
  .next (
    match (s.picks.get p).stops with
    | stop :: _ => if s.nutPast (stop.t + s.ivlWin p + fourTicks) then s.pairStop p stop else s
    | [] => s)

/-- The due stops of a pick paired, oldest first (R119). -/
def State.pairDue (s : State) (p : PickId) : Nat → State
  | 0 => s
  | k + 1 =>
    match (s.picks.get p).stops with
    | stop :: _ => if s.nutPast (stop.t + s.ivlWin p + fourTicks) then (s.pairStop p stop).pairDue p k else s
    | [] => s

/-- START_UNUSED (R120): once the due stops are paired, starts that can no longer be paired are counted. -/
def execStartUnused (p : PickId) (s0 : State) : Host.Outcome State Fault Refusal :=
  .next (
    let s := s0.pairDue p (s0.picks.get p).stops.length
    let x := s.picks.get p
    let gone := fun (q : IvlStamp) => s.nutPast (q.t + s.ivlWin p + s.ivlWin p + fourTicks)
    (s.setPick p { x with starts := x.starts.filter fun q => !gone q }).addSat (Reg.pickIvlUnused p)
      (x.starts.filter gone).length)

/-! ### Gates (R122 to R124) -/

/-- A unit's AUTO gate is due to close (R122). -/
def State.autoDue (s : State) (u : GateUnit) : Bool :=
  match s.gateOf u with
  | some g => g.auto && reached s.nut (g.opn + msNut g.len)
  | none => false

/-- GATE_AUTO_CLOSE (R122): the gate closes, and the next opens on the same tick if AUTO is still 1. -/
def execGateAutoClose (u : GateUnit) (s : State) : Host.Outcome State Fault Refusal :=
  .next (
    if s.autoDue u then
      let s1 := s.closeGate u false
      if s1.rBit (unitBase u + 0x10) 19 then s1.setGates u (some (s1.newGate u)) (s1.closedOf u) else s1
    else s)

/-- A pluck that is due on this tick closes a unit's gate (R122). -/
def State.pluckCloses (s : State) (u : GateUnit) : Bool :=
  let gs := (List.finRange 256).filter s.genDue
  s.unitOn u && (destUnits (s.destOf gs 2 ||| s.destOf gs 3)).contains u

/-- GATE_LIMIT_CLOSE (R122): a gate still open after 1,000 s closes with LONG, unless its own length or a pluck closes it on this
tick. -/
def execGateLimitClose (u : GateUnit) (s : State) : Host.Outcome State Fault Refusal :=
  .next (
    match s.gateOf u with
    | some g => if reached s.nut (g.opn + secNut 1000) && !s.autoDue u && !s.pluckCloses u then s.closeGate u true else s
    | none => s)

/-- No stamp with a value below a closing tick can still come (R66, R122): a pick's stamps lie up to FINE and INS behind their capture
tick, an FMU's on it. -/
def State.allArrived (s : State) (u : GateUnit) (cls : Nut) : Bool :=
  match u with
  | .pick p =>
    reached s.nut (cls + BitVec.ofInt 80 (163839 + max (s.active (lineA p)).ins (s.active (lineB p)).ins) + tickUnits)
  | .fmu _ => reached s.nut cls

/-- GATE_RESULT (R122 to R124, R163, R166): the result of the oldest closed gate, once every stamp below its closing tick has arrived, taken
by the frequency slots of the unit. -/
def execGateResult (u : GateUnit) (s : State) : Host.Outcome State Fault Refusal :=
  .next (
    match s.closedOf u with
    | c :: cs =>
      if s.allArrived u c.cls then
        let r := c.result (s.regN (unitBase u + 0x18) 2)
        let s1 := (s.setGates u (s.gateOf u) cs).writeResult u c
        s1.gateResultTo u c.gate.opn c.cls r.1.toInt (r.2 / 2 ^ 15 % 32 != 0 || r.2 / 2 ^ 13 % 2 == 1)
      else s
    | [] => s)

/-! ### House channels (R127, R128) -/

/-- A write of PICK_HC0_CTRL (R127): SEL is held while a calibration owns HC0. -/
def State.hc0Write (s : State) (v : Word) : State :=
  let s1 := s.setBit Reg.pickHc0Ctrl 19 (bitOf v 19)
  if s.rBit Reg.pickHc0Ctrl 18 then { s1 with house := { s1.house with heldSel := some (fld v 0 3) } }
  else s1.setFld Reg.pickHc0Ctrl 0 3 (fld v 0 3)

/-- HC0_SEL_WRITE (R127). -/
def execHc0SelWrite (v : Word) (s : State) : Host.Outcome State Fault Refusal :=
  .next (s.hostWrite Reg.pickHc0Ctrl fun t => t.hc0Write v)

/-- The length of a touch slot: 16,384 ticks (R128). -/
def touchSlotLen : Nut := 2684354560

/-- The slot of a pad ends on this tick (R128): the slots follow one another from nut value 0 on, TOUCH0's first (DESIGN CHOICE,
notes/assumptions/177.md), and each ends once. -/
def State.touchEnds (s : State) (pad : Fin 4) : Bool :=
  s.nutRun && s.nut != 0 && s.nut.toNat % touchSlotLen.toNat == 0 && (s.nut.toNat / touchSlotLen.toNat - 1) % 4 == pad.val &&
    s.house.touchAt != some s.nut

/-- HC1's stamp of a pad's crossing on a capture tick within the slot that ends now, as the charge time (R128). -/
def State.touchTime (s : State) (nc : Nut) (code : Code) : Word :=
  let d := (s.lineStamp 65 code nc - (s.nut - touchSlotLen)).toInt
  if 0 ≤ d && d < touchSlotLen.toInt then BitVec.ofInt 20 (roundHaz d 4096) else 0xFFFFF

/-- TOUCH_SLOT (R69, R75, R128, R523, R524): the slot of a pad ends on this tick; HC1's crossing is converted with the table of its own
tick, and the hits of the slot get their verdict. -/
def execTouchSlot (pad : Fin 4) (crossing : Option (Nut × Code)) (s : State) : Host.Outcome State Fault Refusal :=
  .next (
    if s.touchEnds pad then
      let (c, s1) : Word × State :=
        match crossing with
        | some (nc, code) => (s.touchTime nc code, s.capture 65 code nc)
        | none => (0xFFFFF, s)
      let s2 := { s1 with lines := vset s1.lines 65 ((s1.lines.get 65).settle s1.nut),
                          house := { s1.house with touchAt := some s1.nut } }
      (s2.setReg (Reg.pickHc1Chg pad) c).touchUpdate pad c
    else s)

/-! ### Frequency measurement units (R167, R168) -/

/-- The input of an FMU lives: FIN0 to FIN3, or the recovered clock of a port in lock (R168). -/
def State.fmuClock (s : State) (u : FmuId) : Bool :=
  u.val < 4 || s.rBit (Reg.prtStat (s.rFld (Reg.brgFmuCtrl u) 3 5)) 18

/-- An edge that passes the prescaler of an FMU (R72, R121, R167, R168): stamped with this tick. -/
def State.fmuPassed (s : State) (u : FmuId) : State :=
  let lost := s.rBit (Reg.brgFmuStat u) 19
  let s1 := (s.setFmu u { s.fmus.get u with seen := some s.nut }).setBit (Reg.brgFmuStat u) 19 false
  let s2 := if lost && decide (u.val < 4) then s1.panelEvent (Ev.finLosEnd u) else s1
  let s3 := s2.gatePass (.fmu u)
  let s4 :=
    if deadTime (s3.fmus.get u).last s3.nut then s3.gateSlip (.fmu u)
    else (s3.setFmu u { s3.fmus.get u with last := some s3.nut }).gateStamp (.fmu u) s3.nut false
  if lost then s4.rsLos else s4

/-- FMU_EDGE (R108, R167): an edge at an FMU's input before this tick. -/
def execFmuEdge (u : FmuId) (s : State) : Host.Outcome State Fault Refusal :=
  .next (
    if s.nutRun && s.rBit (Reg.brgFmuCtrl u) 19 && s.fmuClock u then
      let x := s.fmus.get u
      if x.skip = 0 then (s.setFmu u { x with skip := 2 ^ s.rFld (Reg.brgFmuCtrl u) 14 4 - 1 }).fmuPassed u
      else s.setFmu u { x with skip := x.skip - 1 }
    else s)

/-- FMU_LOS_TIMEOUT (R168): no passed edge for 2^LOS_EXP µs, or a lost port clock. -/
def execFmuLosTimeout (u : FmuId) (s : State) : Host.Outcome State Fault Refusal :=
  .next (
    let x := s.fmus.get u
    let silent := reached s.nut (losFrom x.seen x.enAt + usNut (2 ^ min 21 (s.rFld (Reg.brgFmuCtrl u) 8 5)))
    if s.rBit (Reg.brgFmuCtrl u) 19 && (silent || !s.fmuClock u) then s.fmuLost u else s)

end Sys2Proof.Machine
end

