-- ==== Sys2Proof/Machine/SnapOps.lean ====
section
/-! DEFINITION. Counter numbers and values (R421, R424, R427), the global snapshot and its record (R428, R433 to R435), and single
captures (R429, R436). -/

namespace Sys2Proof.Machine

/-- A number names a counter (R421). -/
def cntValid (n : Nat) : Bool :=
  if n < 0x100 then decide (n % 16 ≤ 9)
  else if 0x400 ≤ n ∧ n < 0x580 then decide (n % 16 ≤ 9)
  else if 0x800 ≤ n ∧ n < 0x840 then decide (n % 16 ≤ 4)
  else decide (0xC00 ≤ n ∧ n ≤ 0xC03)

/-- HOLDOVER, or SWITCHING that began in HOLDOVER (R427). -/
def State.inError (s : State) : Bool := s.selState == BS.holdover || (s.selState == BS.switching && s.bridge.origin == BS.holdover)

/-- BRG_STATUS (R427). -/
def State.brgStatus (s : State) : Nat :=
  let te := if s.inError then min 0xFFFFF (s.regN Reg.brgHoTe 2) else 0
  (s.reg Reg.brgHoStat).toNat + (s.reg Reg.brgSelStat).toNat * 2 ^ 20 + te * 2 ^ 40

/-- The value and OVF of a counter on this tick, those at its start (R420, R424, R427, R428). -/
def State.cntNow (s : State) (n : Nat) : Counter :=
  if 0x800 ≤ n ∧ n < 0x840 ∧ n % 16 = 4 then
    { val := BitVec.ofNat 60 (s.reg (Reg.crsSpeed ((n - 0x800) / 16))).toNat, ovf := false }
  else if n = 0xC00 then { val := BitVec.ofNat 60 s.brgStatus, ovf := false }
  else (Sparse.find s.cntStart n).getD Counter.zero

/-- Where a block of a record lies and its counter k (R435): the first word of the block. -/
def cntBlock (n : Nat) : Nat :=
  if n < 0x100 then 8 + 40 * (n / 16)
  else if n < 0x800 then 648 + 40 * ((n - 0x400) / 16)
  else if n < 0xC00 then 1608 + 24 * ((n - 0x800) / 16)
  else 1704

/-- The counter as the snapshot bank holds it (R428); the bank is 0 after cold reset (R472). -/
def State.cntBank (s : State) (n : Nat) : Counter :=
  let b := cntBlock n
  let k := n % 16
  let w := fun i => s.bank.getD i 0
  { val := BitVec.ofNat 60 (ofWords [w (b + 8 + 3 * k), w (b + 9 + 3 * k), w (b + 10 + 3 * k)]), ovf := bitOf (w (b + 5)) k }

/-- A block of the record (R435): `base` is the number of its counter 0, `k` how many it has. -/
def State.recBlock (s : State) (kind : Nat) (off : Bool) (unit tag base k : Nat) (sel6 sel7 : Word) (len : Nat) : List Word :=
  let cs := (List.range k).map fun i => s.cntNow (base + i)
  let ovf := ofBits (cs.map Counter.ovf)
  let body := [BitVec.ofNat 20 (kind * 2 ^ 18 + off.toNat * 2 ^ 17 + unit * 256 + len)] ++ toWords 4 (s.regN (Reg.tag tag) 4) ++
    [BitVec.ofNat 20 ovf, sel6, sel7] ++ cs.flatMap fun c => toWords 3 c.val.toNat
  body ++ List.replicate (len - body.length) 0

/-- EV0 to EV3 or EV4 to EV7 of a string as a word of its block (R435). -/
def State.strSels (s : State) (st k : Nat) : Word :=
  BitVec.ofNat 20 ((List.range 4).foldl (fun n i => n * 32 + fld (s.selWord (Reg.pmcStrSel st (k + i))) 15 5) 0)

/-- Two selects of a course as a word of its block (R435): EVT [8:4], QEN [3], QUAL [2:0], the first in [17:9]. -/
def State.crsSels (s : State) (c k : Nat) : Word :=
  let one := fun (i : Nat) => fld (s.selWord (Reg.pmcCrsSel c i)) 11 9
  BitVec.ofNat 20 (one k * 512 + one (k + 1))

/-- Ticks since the previous global snapshot (R435): 40 bits, saturating; 0 for the first after cold reset. -/
def State.snapPeriod (s : State) : Nat :=
  if s.bank.isEmpty then 0 else min (2 ^ 40 - 1) ((s.nut - s.reg80 Reg.dmpLast).toNat / 163840)

/-- The record of a snapshot on this tick with its sequence number (R435); LOST is added when it is written (R434). -/
def State.snapRecord (s : State) (seq : Nat) : List Word :=
  let p := s.snapPeriod
  toWords 4 s.nut.toNat ++ toWords 2 p ++
    [BitVec.ofNat 20 seq, BitVec.ofNat 20 ((decide (24000000000 < p)).toNat * 2 ^ 19 + 1728)] ++
    ((List.range 16).flatMap fun st =>
      s.recBlock 0 (!s.powered (1 + st / 4)) st (5 + st) (16 * st) 10 (s.strSels st 0) (s.strSels st 4) 40) ++
    ((List.range 24).flatMap fun p => s.recBlock 1 (!s.powered (5 + p / 6)) p (21 + p) (0x400 + 16 * p) 10 0 0 40) ++
    ((List.range 4).flatMap fun c =>
      s.recBlock 2 (!s.powered (1 + c)) c (1 + c) (0x800 + 16 * c) 5 (s.crsSels c 0) (s.crsSels c 2) 24) ++
    s.recBlock 3 false 0 0 0xC00 4 0 0 24

/-- A record that cannot be written, or is abandoned, is lost (R434). -/
def State.recordLost (s : State) : State :=
  { ((s.addSat Reg.dmpLost 1).orReg Reg.dmpCause 0x40000).setBit Reg.dmpStat 18 false with dumpLost := true }

/-- The dump ring has room for a record, and the DMA engine may write it (R433, R503). -/
def State.dumpRoom (s : State) : Bool :=
  s.dmaUp && decide ((s.rFld Reg.dmpWr 0 16 + 65536 - s.rFld Reg.dmpRd 0 16) % 65536 < 2 ^ s.rFld Reg.dmpCtrl 0 4)

/-- What a snapshot does about its record (R433, R434): due, or lost where the ring is full or the host domain is in reset; in such a
reset EN reads 0 and the record is lost all the same (DESIGN CHOICE, notes/assumptions/133.md). -/
def State.offerRecord (s : State) : State :=
  if !s.hostUp then s.recordLost
  else if s.rBit Reg.dmpCtrl 19 then (if s.dumpRoom then s.setBit Reg.dmpStat 18 true else s.recordLost)
  else s

/-- A global snapshot (R428, R433): one less than 100 µs after the last is ignored; its record is due or lost. -/
def State.snapshot (s : State) : State :=
  if !s.bank.isEmpty && decide ((s.nut - s.reg80 Reg.dmpLast).toNat < 40000 * 163840) then
    (s.addSat Reg.dmpFast 1).orReg Reg.dmpCause 0x20000
  else
    let seq := (s.rFld Reg.dmpSeq 0 16 + 1) % 65536
    let s1 := { s with bank := s.snapRecord seq }
    let s2 := (s1.setFld Reg.dmpSeq 0 16 seq).setRegN Reg.dmpLast 4 s.nut.toNat
    let s3 := if s2.rBit Reg.dmpStat 18 then s2.recordLost else s2
    s3.offerRecord

/-- PMC_LEG_VAL and PMC_LEG_STAT after a capture of the counter that NUM names (R436). -/
def State.legCapture (s : State) : State :=
  let n := s.rFld Reg.pmcLegSel 0 12
  let v := if cntValid n then s.cntNow n else Counter.zero
  ((s.setRegN Reg.pmcLegVal 3 v.val.toNat).latch Reg.pmcLegVal 3 v.val.toNat).setReg Reg.pmcLegStat
    (BitVec.ofNat 20 (v.ovf.toNat * 2 ^ 19 + (cntValid n).toNat * 2 ^ 18))

/-- The next number that names a counter; from 0xC03, 0 (R436). -/
def legNext (n : Nat) : Nat := ((List.range 4096).find? fun i => n < i && cntValid i).getD 0

end Sys2Proof.Machine
end

