-- ==== Sys2Proof/Machine/TimeIns.lean ====
section
/-! DEFINITION. Linkan-20: time (R24, R352 to R354), and the arming of plucks (R133, R344, R345). -/

namespace Sys2Proof.Machine

/-- An instruction that reads or applies time: it stalls while the course's nut replica is out of service (R304, R451). -/
def State.timeOp (s : State) (x : CtxId) (f : Fields) (legal : Bool) (body : State → Res) : State :=
  s.issue x f 1 legal fun t => if t.replicaOut (courseOf x) then .hold .fence else body t

/-- RDNUT (R24, R39): the value of the course's replica. -/
def execRdnut (x : CtxId) (f : Fields) (s : State) : Host.Outcome State Fault Refusal :=
  .next (s.timeOp x f (f.w == 4 && chordOk f.dst 4) fun t =>
    .go true (t.setChord x f.dst 4 (t.nut + (t.replicas.get ⟨(courseOf x).val, by omega⟩).dev).toNat))

/-- The status word of N2T and T2N (R352). -/
def State.tunWord (s : State) (t : TunId) : Word :=
  BitVec.ofNat 20 ((!s.tunOn t).toNat * 2 ^ 19 + (s.tunUnset t).toNat * 2 ^ 18 + (s.isChild t).toNat * 2 ^ 17 +
    (s.rFld (Reg.tunStatus t) 14 1) * 2 ^ 16 + (s.rFld (Reg.tunStatus t) 13 1) * 2 ^ 15 + s.rFld (Reg.tunStatus t) 0 8)

/-- The result of a conversion: its words, the status at G(DST + 7), Z and N (R352). -/
def State.converted (s : State) (x : CtxId) (f : Fields) (t : TunId) (w v : Nat) : State :=
  ((s.setChord x f.dst w v).onCtx x fun c => c.wr (f.dst.toNat + 7) [s.tunWord t]).setFlags x f fun g =>
    { g with z := !s.tunOn t, n := s.tunUnset t }

/-- The tuning an instruction names. -/
def tunArg (f : Fields) : TunId := Fin.ofNat 16 (fld f.imm 0 4)

/-- N2T (R46, R47, R56, R352). -/
def execN2t (x : CtxId) (f : Fields) (s : State) : Host.Outcome State Fault Refusal :=
  .next (s.timeOp x f (f.w == 5 && chordOk f.srca 4 && f.dst.toNat % 8 == 0) fun t =>
    let n : Nut := BitVec.ofNat 80 ((t.ctx x).chord f.srca.toNat 4)
    .go true (t.converted x f (tunArg f) 5 (t.nutToTun (tunArg f) n).toNat))

/-- T2N (R48, R56, R352). -/
def execT2n (x : CtxId) (f : Fields) (s : State) : Host.Outcome State Fault Refusal :=
  .next (s.timeOp x f (f.w == 4 && chordOk f.srca 5 && f.dst.toNat % 8 == 0) fun t =>
    let v : FullTime := BitVec.ofNat 100 ((t.ctx x).chord f.srca.toNat 5)
    .go true (t.converted x f (tunArg f) 4 (t.tunToNut (tunArg f) v).toNat))

/-- SDIFF: (A − B) mod 2⁴⁰. -/
def execSdiff (x : CtxId) (f : Fields) (s : State) : Host.Outcome State Fault Refusal :=
  .next (s.alu x f 1 (f.w == 2 && f.abd) fun a b g => (some (subMod 40 a b 0), g.zn 40 (subMod 40 a b 0)))

/-- SEXT: short stamp A extended against B (R44, R353). -/
def execSext (x : CtxId) (f : Fields) (s : State) : Host.Outcome State Fault Refusal :=
  .next (s.issue x f 1 (f.w == 4 && chordOk f.srca 2 && f.bOk 4 && chordOk f.dst 4) fun t =>
    (t.srcB x f 4).bind fun b u =>
      let st : BitVec 40 := BitVec.ofNat 40 ((u.ctx x).chord f.srca.toNat 2)
      .go f.slow (u.setChord x f.dst 4 (extendStamp st (BitVec.ofNat 80 b)).toNat))

/-- NTPF: the NTP timestamp in bits [63:0], the era in bits [79:64] (R62, R353). -/
def execNtpf (x : CtxId) (f : Fields) (s : State) : Host.Outcome State Fault Refusal :=
  .next (s.unary x f 4 5 4 (f.w == 4) fun a g =>
    let (sec, frac, era) := ntpOf (BitVec.ofNat 100 a)
    (frac + sec * 2 ^ 32 + unsignedOf 16 era * 2 ^ 64, g))

/-! ### TCMT (R354) -/

/-- The commit of a TCMT's operand block. -/
def Ctx.commitOf (c : Ctx) (f : Fields) (kind : BitVec 2) : Commit :=
  let a := f.srca.toNat
  { kind := kind, seq := false, parent := f.m 2, nut := BitVec.ofNat 80 (c.chord a 4), val := BitVec.ofNat 100 (c.chord (a + 8) 5),
    rate := BitVec.ofNat 40 (c.chord (a + 4) 2) }

/-- KIND of a TCMT: MODE[1:0] where it is 3, which R54 discards; else the command's own (R354). -/
def tcmtKind (f : Fields) (kind : BitVec 2) : BitVec 2 := if f.mode.toNat % 4 = 3 then 3 else kind

/-- TCMT (R53, R54, R354): its commit waits for its tick, and its context for the status. A user context takes PRIV, with
TUN_STATUS.ERR set. -/
def State.tcmt (s : State) (x : CtxId) (f : Fields) (kind : BitVec 2) : State :=
  s.issue x f 1 (f.w == 1 && f.srca.toNat % 16 == 0) fun u =>
    if !(u.ctx x).sys then .trap Flt.priv (u.setBit (Reg.tunStatus (tunArg f)) 15 true)
    else if u.replicaOut (courseOf x) then .hold .fence
    else
      let t := tunArg f
      let e : ProgCommit := { course := courseOf x, x := x, item := (u.ctx x).item, dst := f.dst, sf := f.sf,
                              c := (u.ctx x).commitOf f (tcmtKind f kind) }
      let q := { u.tunings.get t with progs := (u.tunings.get t).progs ++ [e] }
      .jump ((u.ctx x).pc.toNat + 1)
        ((({ u with tunings := vset u.tunings t q }).depart (crsXing (courseOf x)) (.prog t x)).onCtx x fun c =>
          { c with mode := .stall, stall := .commit })

/-- TCMT FULL. -/
def execTcmtFull (x : CtxId) (f : Fields) (s : State) : Host.Outcome State Fault Refusal := .next (s.tcmt x f 0)
/-- TCMT RATE. -/
def execTcmtRate (x : CtxId) (f : Fields) (s : State) : Host.Outcome State Fault Refusal := .next (s.tcmt x f 1)
/-- TCMT STEP. -/
def execTcmtStep (x : CtxId) (f : Fields) (s : State) : Host.Outcome State Fault Refusal := .next (s.tcmt x f 2)

/-! ### ARMP (R133, R344, R345) -/

/-- A register word given by a program: its rw bits alone (R13). -/
def State.putRw (s : State) (a : Nat) (v : Word) : State := s.setReg a ((s.reg a &&& ~~~(regRwMask a)) ||| (v &&& regRwMask a))

/-- Consecutive register words given by a program. -/
def State.putRws (s : State) (a : Nat) : List Word → State
  | [] => s
  | w :: ws => (s.putRw a w).putRws (a + 4) ws

/-- A write of PLK_EDGE_CTRL (R155, R156): EN acts at once; when it rises, a target that has passed is skipped. -/
def State.edgeCtrlWrite (s : State) (o : OutId) (v : Word) : State :=
  let was := s.rBit (Reg.plkEdgeCtrl o) 19
  let s1 := s.putRw (Reg.plkEdgeCtrl o) v
  if bitOf v 19 && !was && s1.rBit (Reg.plkEdgeStat o) 19 && !s1.rBit (Reg.plkEdgeStat o) 17 && s1.edgeLate o then
    (s1.edgeMissed o).endPass
  else s1

/-- The status of an ARMP written to G(DST), the other bits 0; Z for ARMED or DISARMED (R344). -/
def State.armpStatus (s : State) (x : CtxId) (dst : BitVec 6) (sf : Bool) (code : Nat) : State :=
  s.onCtx x fun c =>
    let d := c.wr dst.toNat [BitVec.ofNat 20 (code * 65536)]
    { d with fl := if sf then { d.fl with z := decide (code ≤ 1) } else d.fl }

/-- The ACTION that a user's disarm is judged by (R344). -/
def State.armedAction (s : State) (g : PluckId) : Nat :=
  if s.rBit (Reg.plkStat g) 19 then cfgAction (s.plucks.get g).cfg else fld (s.reg (Reg.plkCtrl g)) 16 4

/-- ARMP stalls until its arm tick: the PC of the next instruction is set. -/
def State.armWait (s : State) (x : CtxId) : Res :=
  .jump ((s.ctx x).pc.toNat + 1) (s.onCtx x fun c => { c with mode := .stall, stall := .arm })

/-- The block of a general pluck written into its registers (R344): a user's ARG0[19] is stored as 0. -/
def State.armBlock (s : State) (x : CtxId) (g : PluckId) (a : Nat) : State :=
  let c := s.ctx x
  let arg0 := if c.sys then c.r (a + 10) else putBit (c.r (a + 10)) 19 false
  (((((s.putRw (Reg.plkCtrl g) (c.r a)).putRw (Reg.plkDest g) (c.r (a + 1))).putRws (Reg.plkTgt g) (c.rd (a + 2) 5)).putRws
    (Reg.plkPer g) (c.rd (a + 7) 3)).putRws (Reg.plkArg g) [arg0, c.r (a + 11)])

/-- The block of an edge pluck written into its registers (R344). -/
def State.armEdgeBlock (s : State) (x : CtxId) (o : OutId) (a : Nat) : State :=
  let c := s.ctx x
  ((((s.edgeCtrlWrite o (c.r a)).putRws (Reg.plkEdgeTgt o) (c.rd (a + 2) 5)).putRws (Reg.plkEdgePer o) (c.rd (a + 7) 3)).putRws
    (Reg.plkEdgeWidth o) (c.rd (a + 12) 2))

/-- ARMP on a general pluck (R133, R344, R345). -/
def State.armGen (s : State) (x : CtxId) (f : Fields) (disarm : Bool) : Res :=
  let c := s.ctx x
  let g : PluckId := Fin.ofNat 256 ((courseOf x).val * 64 + fld f.imm 0 6)
  let act := if disarm then s.armedAction g else fld (c.r f.srca.toNat) 16 4
  let tail := some (x, c.item, f.dst, f.sf)
  if !c.sys && act ≠ 1 then .fault Flt.priv
  else if s.replicaOut (courseOf x) then .hold .fence
  else if s.rFld (Reg.plkStat g) 17 2 != 0 then .go true (s.armpStatus x f.dst f.sf 4)
  else if disarm then
    (s.offerPluck g { arm := false, disarm := true, cfg := PluckCfg.zero, armp := tail }).armWait x
  else
    let s1 := s.armBlock x g f.srca.toNat
    (s1.offerPluck g { arm := true, disarm := false, cfg := s1.plkCfg g, armp := tail }).armWait x

/-- ARMP on an edge pluck: system contexts alone (R133, R344, R345). -/
def State.armEdge (s : State) (x : CtxId) (f : Fields) (disarm : Bool) : Res :=
  let c := s.ctx x
  let o : OutId := Fin.ofNat 8 (fld f.imm 0 3)
  let tail := some (x, c.item, f.dst, f.sf)
  if !c.sys then .fault Flt.priv
  else if s.replicaOut (courseOf x) then .hold .fence
  else if s.rBit (Reg.plkEdgeStat o) 18 || s.rBit (Reg.plkEdgeStat o) 10 then .go true (s.armpStatus x f.dst f.sf 4)
  else if disarm then
    (s.offerEdge o { arm := false, disarm := true, cfg := PluckCfg.zero, armp := tail }).armWait x
  else
    let s1 := s.armEdgeBlock x o f.srca.toNat
    (s1.offerEdge o { arm := true, disarm := false, cfg := s1.edgeCfg o, armp := tail }).armWait x

/-- ARMP with MODE[0] as the command gives it. -/
def State.armpOp (s : State) (x : CtxId) (f : Fields) (disarm : Bool) : State :=
  s.issue x f 1 (f.w == 1 && (disarm || f.srca.toNat % 16 == 0)) fun t =>
    if bitOf f.imm 8 then t.armEdge x f disarm else t.armGen x f disarm

/-- ARMP, arming. -/
def execArmpArm (x : CtxId) (f : Fields) (s : State) : Host.Outcome State Fault Refusal := .next (s.armpOp x f false)
/-- ARMP, disarming. -/
def execArmpDisarm (x : CtxId) (f : Fields) (s : State) : Host.Outcome State Fault Refusal := .next (s.armpOp x f true)

end Sys2Proof.Machine
end

