-- ==== Sys2Proof/Machine/Plucks.lean ====
section
/-! DEFINITION. The commands of general and edge plucks: arms and disarms, arm ticks, firings, re-conversion and the loopback
calibration (R131 to R160). -/

namespace Sys2Proof.Machine

/-! ### Arms and disarms (R134) -/

/-- The request a word of PLK_CMD or PLK_EDGE_CMD makes of a configuration. -/
def hostReq (v : Word) (c : PluckCfg) : PluckReq := { arm := bitOf v 19, disarm := bitOf v 18, cfg := c, armp := none }

/-- A word written to PLK_CMD (R134). -/
def State.plkCmd (s : State) (g : PluckId) (v : Word) : State :=
  if bitOf v 19 || bitOf v 18 then s.offerPluck g (hostReq v (s.plkCfg g)) else s

/-- A word written to PLK_EDGE_CMD (R134, R158). -/
def State.edgeCmd (s : State) (o : OutId) (v : Word) : State :=
  let s1 := if bitOf v 19 || bitOf v 18 then s.offerEdge o (hostReq v (s.edgeCfg o)) else s
  if bitOf v 17 then s1.calQueue o else s1

/-- PLUCK_ARM (R134). -/
def execPluckArm (g : PluckId) (v : Word) (s : State) : Host.Outcome State Fault Refusal :=
  .next (s.hostWrite (Reg.plkCmd g) fun t => t.plkCmd g v)

/-- PLUCK_DISARM (R134). -/
def execPluckDisarm (g : PluckId) (s : State) : Host.Outcome State Fault Refusal :=
  .next (s.hostWrite (Reg.plkCmd g) fun t => t.plkCmd g 0x40000)

/-- EDGE_PLUCK_ARM (R134). -/
def execEdgePluckArm (o : OutId) (v : Word) (s : State) : Host.Outcome State Fault Refusal :=
  .next (s.hostWrite (Reg.plkEdgeCmd o) fun t => t.edgeCmd o v)

/-- EDGE_PLUCK_DISARM (R134). -/
def execEdgePluckDisarm (o : OutId) (s : State) : Host.Outcome State Fault Refusal :=
  .next (s.hostWrite (Reg.plkEdgeCmd o) fun t => t.edgeCmd o 0x40000)

/-- EDGE_CAL_START (R158). -/
def execEdgeCalStart (o : OutId) (s : State) : Host.Outcome State Fault Refusal :=
  .next (s.hostWrite (Reg.plkEdgeCmd o) fun t => t.edgeCmd o 0x20000)

/-- EDGE_EN_WRITE (R155, R156). -/
def execEdgeEnWrite (o : OutId) (v : Word) (s : State) : Host.Outcome State Fault Refusal :=
  .next (s.hostWrite (Reg.plkEdgeCtrl o) fun t => t.edgeCtrlWrite o v)

/-! ### The arm tick (R135 to R141) -/

/-- A late target under DROP or SKIP (R139, R141); under FIRE_LATE the pluck is due and fires on this tick. -/
def State.lateGen (s : State) (g : PluckId) : State :=
  let c := (s.plucks.get g).cfg
  let l := lateness (cfgShort c) (s.reg80 (Reg.plkNtgt g)) s.nut
  if l = 0 || cfgPolicy c = 0 then s
  else
    let s1 := (s.setBit (Reg.plkStat g) 13 true).noteLate g l
    if cfgPolicy c = 1 then (s1.addSat (Reg.plkMisscnt g) 1).disarmGen g
    else
      let k := s.lateK g false
      (s1.addSat (Reg.plkMisscnt g) k).advanceGen g k

/-- An edge pluck is due: armed, enabled, not held, its firing tick reached (R154, R156). -/
def State.edgeDue (s : State) (o : OutId) : Bool :=
  s.rBit (Reg.plkEdgeStat o) 19 && !s.rBit (Reg.plkEdgeStat o) 17 && s.rBit (Reg.plkEdgeCtrl o) 19 &&
    decide (s.edgeTick o (s.reg80 (Reg.plkEdgeNtgt o)) ≤ s.nut.toNat)

/-- The request of a general pluck taken from the crossing: the one behind it starts to cross (R134). -/
def State.takeReq (s : State) (g : PluckId) : State :=
  (((s.setPluck g { s.plucks.get g with pend := none }).setBit (Reg.plkStat g) 18 false).land (.gen g)).startGen g

/-- The request of an edge pluck taken from the crossing (R134). -/
def State.takeEdgeReq (s : State) (o : OutId) : State :=
  let e := s.edges.get o
  (((s.setEdge o { e with pluck := { e.pluck with pend := none } }).setBit (Reg.plkEdgeStat o) 18 false).land (.edge o)).startEdge o

/-- A request of general pluck g takes effect, with the status an ARMP returns: 0 ARMED, 1 DISARMED, 2 REFUSED, 3 RANGE
(R135, R136, R138, R344). A disarm on a firing tick leaves that firing in place (R146). -/
def State.applyGen (s : State) (g : PluckId) (r : PluckReq) : State × Nat :=
  let p := s.plucks.get g
  let c := r.cfg
  if !r.arm then
    if s.genDue g then (s.setPluck g { p with cfg := { p.cfg with ctrl := putBit p.cfg.ctrl 7 false } }, 1)
    else (s.disarmGen g, 1)
  else if s.armRefused r then ((s.disarmGen g).setBit (Reg.plkStat g) 11 true, 2)
  else
    let x := s.targetNut (cfgBase c) (cfgTun c) c.tgt
    if cfgShort c && (!inHorizon x s.nut || (cfgPeriodic c && decide (2 ^ 47 ≤ c.per.toNat))) then
      ((s.disarmGen g).setBit (Reg.plkStat g) 12 true, 3)
    else
      let s1 := (s.setPluck g { p with cfg := c, tgt := c.tgt, mark := false }).setRegN (Reg.plkNtgt g) 4 x.toNat
      (((s1.setBit (Reg.plkStat g) 19 true).setBit (Reg.plkStat g) 16 false).lateGen g, 0)

/-- A request of edge pluck o takes effect, with the status an ARMP returns (R135, R136, R155, R344). -/
def State.applyEdge (s : State) (o : OutId) (r : PluckReq) : State × Nat :=
  let e := s.edges.get o
  let c := r.cfg
  if !r.arm then
    if s.edgeDue o then
      (s.setEdge o { e with pluck := { e.pluck with cfg := { e.pluck.cfg with ctrl := putBit e.pluck.cfg.ctrl 11 false } } }, 1)
    else (s.disarmEdge o, 1)
  else if s.edgeRefused r then ((s.disarmEdge o).setBit (Reg.plkEdgeStat o) 14 true, 2)
  else
    let x := s.targetNut (ecfgBase c) (ecfgTun c) c.tgt
    let s1 := (s.setEdge o { e with pluck := { e.pluck with cfg := c, tgt := c.tgt, mark := false } }).setRegN
      (Reg.plkEdgeNtgt o) 4 x.toNat
    let s2 := (s1.setBit (Reg.plkEdgeStat o) 19 true).setBit (Reg.plkEdgeStat o) 17 false
    (if s2.rBit (Reg.plkEdgeCtrl o) 19 && s2.edgeLate o then s2.edgeMissed o else s2, 0)

/-- The status of an ARMP crosses back to its context, unless its work item has ended (R325, R344). -/
def State.armpBack (s : State) (r : PluckReq) (code : Nat) : State :=
  match r.armp with
  | some (x, item, dst, sf) =>
    if (s.ctx x).item = item then (s.armpStatus x dst sf code).onCtx x fun c => { c with stall := .result } else s
  | none => s

/-- PLUCK_ARM_TICK (R134 to R141). -/
def execPluckArmTick (a : AnyPluck) (s : State) : Host.Outcome State Fault Refusal :=
  .next (
    match a with
    | .gen g =>
      match (s.plucks.get g).pend with
      | some r =>
        let (s1, code) := (s.takeReq g).applyGen g r
        (s1.armpBack r code).endPass
      | none => s
    | .edge o =>
      match (s.edges.get o).pluck.pend with
      | some r =>
        let (s1, code) := (s.takeEdgeReq o).applyEdge o r
        (s1.armpBack r code).endPass
      | none => s)

/-! ### Firings of general plucks (R137 to R146) -/

/-- Some due pluck has an ACTION. -/
def State.anyAct (s : State) (gs : List PluckId) (act : Nat) : Bool := gs.any fun g => cfgAction (s.plucks.get g).cfg == act

/-- The course of a general pluck (R131). -/
def plkCourse (g : PluckId) : CourseId := ⟨g.val / 64, by omega⟩

/-- The start request of a firing: queued; discarded where an earlier one still waits, or the course does not run (R144). -/
def State.startFire (s : State) (g : PluckId) : State :=
  let c := plkCourse g
  let cfg := (s.plucks.get g).cfg
  let miss := fun (b : Nat) =>
    let t := (s.setBit (Reg.plkStat g) b true).addSat (Reg.plkMisscnt g) 1
    if t.powered (1 + c.val) then t.crsEvent c 11 none 1 else t
  if s.crsState c ≠ CS.run then miss 13
  else if (s.course c).startQ.any fun q => q.pluck == g then miss 10
  else
    let q : StartReq := { pluck := g, nut := s.nut, entry := cfg.arg0, arg1 := cfg.arg1 }
    (s.onCourse c fun v => { v with startQ := v.startQ ++ [q] }).crsEvent c 10 none 1

/-- What a firing leaves in the pluck itself: FIRED, SEQ, LAST, LATE under FIRE_LATE, and its next target (R141, R142, R159). -/
def State.firedGen (s : State) (g : PluckId) : State :=
  let c := (s.plucks.get g).cfg
  let l := lateness (cfgShort c) (s.reg80 (Reg.plkNtgt g)) s.nut
  let s1 := ((s.setBit (Reg.plkStat g) 15 true).incFld (Reg.plkStat g) 0 8).setRegN (Reg.plkLast g) 4 s.nut.toNat
  let s2 := if l = 0 then s1 else (s1.setBit (Reg.plkStat g) 14 true).noteLate g l
  if cfgPeriodic c then
    let k := if l = 0 then 1 else s.lateK g true
    (s2.addSat (Reg.plkMisscnt g) (k - 1)).advanceGen g k
  else s2.disarmGen g

/-- The actions of the plucks that fire on one tick: each unit acts once per kind, GATE_CLOSE before GATE_OPEN, start requests
in pluck order (R143 to R146). -/
def State.actions (s : State) (gs : List PluckId) : State :=
  let s1 := if s.anyAct gs 4 then s.snapshot else s
  let s2 := (destUnits (s.destOf gs 3)).foldl (fun u k => u.pluckCloseGate k) s1
  let s3 := (destUnits (s.destOf gs 2)).foldl (fun u k => u.openGate k) s2
  let s4 := if s.anyAct gs 5 then s3.swapTdc (s.destOf gs 5) else s3
  let s5 := if s.anyAct gs 6 then s4.onHarp fun v => { v with epochDue := true } else s4
  (gs.filter fun g => cfgAction (s.plucks.get g).cfg == 1).foldl (fun u g => u.startFire g) s5

/-- PLUCK_FIRE (R137 to R146): every general pluck that is due on this tick. -/
def execPluckFire (s : State) : Host.Outcome State Fault Refusal :=
  .next (
    if s.nutRun then
      let gs := (List.finRange 256).filter s.genDue
      if gs.isEmpty then s else (gs.foldl (fun u g => u.firedGen g) (s.actions gs)).endPass
    else s)

/-! ### Edges (R154 to R158, R204) -/

/-- HC0's capture of an edge is stamped, and the calibration takes the stamp (R127, R158). -/
def State.hc0Take (s : State) (e : Hc0Capture) : State :=
  let (s1, st) := s.hc0Stamp e.out e.nc e.code
  s1.calEdge e.out e.intended st

/-- HC0 sees a rising edge of the output it watches (R72, R75, R127): a capture of a later tick is stamped at the end of that tick; an edge
that its line cannot see is discarded and counted. -/
def State.risingEdge (s : State) (o : OutId) (intended : Nut) (hc0 : Option (Nut × Code)) : State :=
  if s.hc0Watches o then
    match hc0 with
    | some (nc, c) =>
      let e : Hc0Capture := { out := o, intended := intended, nc := nc, code := c }
      if reached s.nut nc then s.hc0Take e
      else { s with house := { s.house with due := s.house.due ++ [e] } }
    | none => s.addSat (Reg.nutTdcDead 64) 1
  else s

/-- The end of a tick for HC0: the captures of this tick are stamped (R66, R75). -/
def State.hc0Ends (s : State) : State :=
  let now := s.house.due.filter fun e => reached s.nut e.nc
  let s1 := { s with house := { s.house with due := s.house.due.filter fun e => !reached s.nut e.nc } }
  now.foldl State.hc0Take s1

/-- The leading edge of an output's pulse or frame leaves (R154, R204, R209), or is suppressed by a squelch. -/
def State.leadingEdge (s : State) (o : OutId) (x : Nut) (fine : Nat) (hc0 : Option (Nut × Code)) : State :=
  let e := s.edges.get o
  let c := e.pluck.cfg
  let w : Nut := BitVec.ofNat 80 (c.width.toNat * 163840)
  let low := bitOf c.ctrl 17
  let sq := s.squelched o
  let s1 :=
    if bitOf c.ctrl 18 then
      let f : Option IrigFrame := if sq then none
        else some { at_ := s.nut, fine := fine, x := x, el := s.irigElements x, edge := 1, high := true, low := low }
      { s.setEdge o { e with pulse := none } with irig := vset s.irig o f }
    else
      { s.setEdge o { e with pulse := some { off := s.nut + w, fine := fine, x := x + w, low := low, sup := sq } } with
        irig := vset s.irig o none }
  if sq then s1.loseEdge o x
  else
    let s2 := s1.setEdge o { s1.edges.get o with lead := some s1.nut }
    if low then s2 else s2.risingEdge o x hc0

/-- A running pulse of the output ends after this tick (R154). -/
def State.pulseRuns (s : State) (o : OutId) : Bool :=
  (match (s.edges.get o).pulse with
   | some p => !p.sup && decide (0 < (p.off - s.nut).toInt)
   | none => false) ||
  (match s.irig.get o with
   | some f => f.high
   | none => false)

/-- An edge pluck's firing on its tick (R154, R156): SEQ counts it, and it advances or disarms. -/
def State.fireEdge (s : State) (o : OutId) (hc0 : Option (Nut × Code)) : State :=
  let x := s.reg80 (Reg.plkEdgeNtgt o)
  let fine := (edgeCode x (s.edgeCorr o)).2
  let s1 := (s.incFld (Reg.plkEdgeStat o) 0 8).leadingEdge o x fine hc0
  if ecfgPeriodic (s.edges.get o).pluck.cfg then s1.advanceEdge o 1 else s1.disarmEdge o

/-- EDGE_PLUCK_FIRE (R154, R155): an edge whose tick has passed, or that falls into the running pulse, is missed. -/
def execEdgePluckFire (o : OutId) (hc0 : Option (Nut × Code)) (s : State) : Host.Outcome State Fault Refusal :=
  .next (
    if s.nutRun && s.edgeDue o then (if s.edgeLate o || s.pulseRuns o then s.edgeMissed o else s.fireEdge o hc0).endPass else s)

/-- EDGE_TRAILING (R154, R204): WIDTH ticks after the leading edge. -/
def execEdgeTrailing (o : OutId) (hc0 : Option (Nut × Code)) (s : State) : Host.Outcome State Fault Refusal :=
  .next (
    match (s.edges.get o).pulse with
    | some p =>
      if reached s.nut p.off then
        let s1 := s.setEdge o { s.edges.get o with pulse := none }
        if p.low && !p.sup then s1.risingEdge o p.x hc0 else s1
      else s
    | none => s)

/-- EDGE_CAL_COMPLETE (R158): CORR and CALERR. -/
def execEdgeCalComplete (o : OutId) (s : State) : Host.Outcome State Fault Refusal :=
  .next (
    let n := s.house.calN
    if s.house.calOut == some o && decide (2 ^ s.rFld (Reg.plkEdgeCal o) 16 3 ≤ n) then
      let m := roundHaz s.house.calSum (n : Int)
      let corr := s.edgeCorr o - roundHaz m 80
      let fail := decide (65536 < m.natAbs) || decide (1023 < corr.natAbs)
      let s1 := s.setReg (Reg.plkEdgeCalerr o) (satSigned 20 m)
      let s2 := if fail then s1.setBit (Reg.plkEdgeStat o) 11 true
        else (s1.setFld (Reg.plkEdgeCal o) 0 11 (BitVec.ofInt 11 corr).toNat).setBit (Reg.plkEdgeStat o) 12 true
      s2.calEnd o
    else s)

/-- EDGE_CAL_TIMEOUT (R158): 4 s without a usable edge. -/
def execEdgeCalTimeout (o : OutId) (s : State) : Host.Outcome State Fault Refusal :=
  .next (
    if s.house.calOut == some o && reached s.nut (s.house.calFrom + secNut 4) then
      (s.setBit (Reg.plkEdgeStat o) 11 true).calEnd o
    else s)

/-! ### Re-conversion (R148 to R151) -/

/-- A marked general pluck re-converted (R148 to R151). -/
def State.reconvGen (s : State) (g : PluckId) : State :=
  let p := s.plucks.get g
  let c := p.cfg
  if !s.tunOn (cfgTun c) then (s.disarmGen g).setBit (Reg.plkStat g) 11 true
  else
    let x := s.targetNut true (cfgTun c) p.tgt
    if cfgShort c && !inHorizon x s.nut then (s.disarmGen g).setBit (Reg.plkStat g) 12 true
    else
      (((s.setPluck g { p with mark := false }).setRegN (Reg.plkNtgt g) 4 x.toNat).setBit (Reg.plkStat g) 16 false).lateGen g

/-- A marked edge pluck re-converted (R148 to R151, R155). -/
def State.reconvEdge (s : State) (o : OutId) : State :=
  let e := s.edges.get o
  let c := e.pluck.cfg
  if !s.tunOn (ecfgTun c) then (s.disarmEdge o).setBit (Reg.plkEdgeStat o) 14 true
  else
    let x := s.targetNut true (ecfgTun c) e.pluck.tgt
    let s1 := ((s.setEdge o { e with pluck := { e.pluck with mark := false } }).setRegN (Reg.plkEdgeNtgt o) 4 x.toNat).setBit
      (Reg.plkEdgeStat o) 17 false
    if s1.rBit (Reg.plkEdgeCtrl o) 19 && s1.edgeLate o then s1.edgeMissed o else s1

/-- PLUCK_RECONVERT (R148 to R151). -/
def execPluckReconvert (a : AnyPluck) (s : State) : Host.Outcome State Fault Refusal :=
  .next (
    match a with
    | .gen g => if (s.plucks.get g).mark then (s.reconvGen g).endPass else s
    | .edge o => if (s.edges.get o).pluck.mark then (s.reconvEdge o).endPass else s)

end Sys2Proof.Machine
end

