-- ==== Sys2Proof/Machine/Outputs.lean ====
section
/-! DEFINITION. The commands of IRIG-B and of the time-of-day UARTs (R209 to R213). -/

namespace Sys2Proof.Machine

/-- A tuning reads k + 0.9 s on this tick and did not on the last. -/
def State.tenthBefore (s : State) (t : TunId) : Bool :=
  let f := fun (n : Nut) => (ftUnits (s.reading t n) + secUnits / 10) / secUnits
  decide (f (s.nut - tickUnits) < f s.nut)

/-- IRIG_CF_LATCH (R210): 100 ms before the on-time point. -/
def execIrigCfLatch (s : State) : Host.Outcome State Fault Refusal :=
  .next (if s.nutRun && s.tenthBefore s.irigTun then { s with irigCf := BitVec.ofNat 27 (s.regN Reg.brgIrigCf 2) } else s)

/-- IRIG_ELEMENT_EDGE (R156, R209): the next edge of the frame on the output; with EN = 0 no further element begins. -/
def execIrigElementEdge (o : OutId) (hc0 : Option (Nut × Code)) (s : State) : Host.Outcome State Fault Refusal :=
  .next (
    match s.irig.get o with
    | some f =>
      let d := irigOffset f.el f.edge
      if reached s.nut (f.at_ + d) then
        let lead := f.edge % 2 == 0
        let act := lead && s.rBit (Reg.plkEdgeCtrl o) 19
        let f' : Option IrigFrame := if f.edge = 199 then none else some { f with edge := f.edge + 1, high := act }
        let s1 := { s with irig := vset s.irig o f' }
        if (act && !f.low) || (!lead && f.high && f.low) then s1.risingEdge o (f.x + d) hc0 else s1
      else s
    | none => s)

/-- TOD_RECORD_START (R211 to R213): DELAY ms after a second's on-time point its record starts, unless the second's edge was lost
or the record cannot end in time. -/
def execTodRecordStart (u : Fin 2) (s : State) : Host.Outcome State Fault Refusal :=
  .next (
    if s.nutRun && s.rBit (Reg.brgTodCtrl u) 19 then
      let t := s.todTun u
      let o : OutId := Fin.ofNat 8 (s.rFld (Reg.brgTodCtrl u) 10 3)
      let x := s.onTime t (s.nut - msNut (s.rFld (Reg.brgTodCtrl u) 0 10))
      let d := s.tods.get u
      if d.sec.any (sameSecond x) then s
      else
        let s1 := { s with tods := vset s.tods u { d with sec := some x } }
        if s.edgeLost o x then s1
        else
          let q := s.secondAt t x
          let sec := (q.1 % (2 : Int) ^ 48).toNat
          let rec_ := if s.rBit (Reg.brgTodCtrl u) 18 then s.todRecord u sec else zdaRecord (s.rBit (Reg.brgTodCtrl u) 17) sec q.2
          let dur : Nut := BitVec.ofNat 80 (rec_.length * 10 * 65536000000000 / baudRate (s.rFld (Reg.brgTodBaud u) 0 3))
          if !reached s.nut d.until_ || decide (65536000000000 ≤ dur.toNat) then s1.orReg Reg.brgLcause 0x08000
          else { s1 with tods := vset s1.tods u { sec := some x, sent := rec_, until_ := s.nut + dur, step := false } }
    else s)

end Sys2Proof.Machine
end

