-- ==== Sys2Proof/Machine/Ports.lean ====
section
/-! DEFINITION. The commands of ports and frets (R84 to R107, R273 to R299, R425, R426), launch plucks (R152) and the SyncE
synthesiser (R208). -/

namespace Sys2Proof.Machine

/-- PCS_LOCK_GAIN (R85, R275): the receive UI count starts; a PCS in lock has a signal (R298; DEDUCED, notes/assumptions/72.md). -/
def execPcsLockGain (p : PortId) (s : State) : Host.Outcome State Fault Refusal :=
  .next (if s.portRuns p && !s.rBit (Reg.prtStat p) 18 then (((s.setBit (Reg.prtStat p) 18 true).setBit (Reg.prtStat p) 14 false).onPort p fun y =>
    { y with rxUi := 0 }).linkEval p else s)

/-- PCS_LOCK_LOSS (R92, R168, R275, R298): whether the SerDes still detects a signal is a free value (DEDUCED,
notes/assumptions/72.md). -/
def execPcsLockLoss (p : PortId) (s : State) : Host.Outcome State Fault Refusal :=
  .next (
    if s.rBit (Reg.prtStat p) 18 then
      let (b, s1) := s.free 1
      ((s1.setBit (Reg.prtStat p) 14 (b == 1)).loseLock p).recoveryLost p
    else s)

/-- FRET_WINDOW_END (R91, R92): a window of 2¹⁹ ticks ends on a multiple of its length. -/
def execFretWindowEnd (p : PortId) (tx : Bool) (n : Word) (s : State) : Host.Outcome State Fault Refusal :=
  .next (
    let n0 := (s.modeRow p).n0
    let done := if tx then (s.port p).txWin else (s.port p).rxWin
    if s.nutRun && s.nut.toNat % (524288 * 163840) == 0 && done != s.nut && s.portRuns p &&
        (tx || s.rBit (Reg.prtStat p) 18) then
      let s1 := s.onPort p fun y => if tx then { y with txWin := s.nut } else { y with rxWin := s.nut }
      if decide (n0 < 5000 * ((n.toNat : Int) - n0).natAbs) then s1.setBit (Reg.fretStat p) (if tx then 16 else 17) true
      else if tx then (s1.setReg (Reg.fretTxcnt p) n).setBit (Reg.fretStat p) 18 true
      else (s1.setReg (Reg.fretRxcnt p) n).setBit (Reg.fretStat p) 19 true
    else s)

/-- RX_FRAME (R86, R93, R276, R285, R297). A frame is received while the port has PCS lock and its crossing is not void
(R465). -/
def execRxFrame (p : PortId) (frame : List Byte) (fcsOk cwBad : Bool) (m : RxMark) (s : State) :
    Host.Outcome State Fault Refusal :=
  .next (
    if s.portRuns p && s.rBit (Reg.prtStat p) 18 && !s.isVoid ⟨p.val, by omega⟩ then
      let s1 := s.rxArrive p m
      if frame.length < 60 then s1.addSat (Reg.prtCnt p 1) 1
      else if s.rFld (Reg.prtMaxlen p) 0 12 < frame.length + 4 then s1.addSat (Reg.prtCnt p 2) 1
      else if !fcsOk || cwBad then s1.addSat (Reg.prtCnt p 0) 1
      else if be16 frame 12 = 0x8808 then s1.addSat (Reg.prtCnt p 3) 1
      else s1.rxStore p frame (s.rxPoint p m)
    else s)

/-- TX_FILL_ENTRY (R87, R95 to R100, R292, R295): the next frame of the port enters the fill stage. A fenced fret takes none
(R451). -/
def execTxFillEntry (p : PortId) (m : TxMark) (s : State) : Host.Outcome State Fault Refusal :=
  .next (
    if s.portRuns p && s.fretIn p && !s.isVoid ⟨24 + p.val, by omega⟩ then
      match s.takeFill p with
      | some (e, s1) => (s1.onPort p fun y => { y with txWord := y.txWord + m.word }).fillFrame p e (s.txPoint p m)
      | none => s
    else s)

/-- TX_FRAME_DONE (R293, R425): the FCS of the first frame of the pipeline has left. -/
def execTxFrameDone (p : PortId) (s : State) : Host.Outcome State Fault Refusal :=
  .next (
    match (s.port p).fill with
    | f :: _ =>
      let s1 := s.convertFills p
      let d := (s.convert p f).d
      ((s1.onPort p fun y => { y with fill := y.fill.tail }).countFrame p true (f.bytes.length + 4)).endSend f.send d
    | [] => s)

/-- PORT_RESET (R274): a write of PRT_CTRL that starts a port reset. -/
def execPortReset (p : PortId) (v : Word) (s : State) : Host.Outcome State Fault Refusal :=
  .next (s.hostWrite (Reg.prtCtrl p) fun t => t.portCtrl p v)

/-- PORT_RESET_END (R274): a write of PRT_CTRL with RST at 0. -/
def execPortResetEnd (p : PortId) (v : Word) (s : State) : Host.Outcome State Fault Refusal :=
  .next (s.hostWrite (Reg.prtCtrl p) fun t => t.portCtrl p (putBit v 18 false))

/-- A module's presence changes (R277): the cause, the panel event, and the end of a transaction with a module removed
(R278). -/
def State.moduleChange (s : State) (p : PortId) (inn : Bool) : State :=
  let s1 := (s.setBit (Reg.prtStat p) 16 inn).orReg (Reg.prtCause p) 0x40000
  let s2 := if inn then s1 else s1.i2cFinish p true
  s2.panelEvent (if inn then Ev.modIn p else Ev.modOut p)

/-- MODULE_SAMPLE (R277): a level is low while a module is present. -/
def execModuleSample (levels : BitVec 24) (s : State) : Host.Outcome State Fault Refusal :=
  .next (
    foldFin 24 (fun p u =>
      let d := (u.panel.mods.get p).sample (!levels.getLsbD p) 10
      let u1 := { u with panel := { u.panel with mods := vset u.panel.mods p d } }
      if d.level = u1.rBit (Reg.prtStat p) 16 then u1 else u1.moduleChange p d.level) s)

/-- I2C_READ_CMD (R278): a write of PRT_I2C_CMD with GO = 1 and RD = 1. -/
def execI2cReadCmd (p : PortId) (v : Word) (s : State) : Host.Outcome State Fault Refusal :=
  .next (s.hostWrite (Reg.prtI2cCmd p) fun t => t.i2cCmd p (v ||| 0xC0000))

/-- I2C_WRITE_CMD (R278): a write of PRT_I2C_CMD with GO = 1 and RD = 0. -/
def execI2cWriteCmd (p : PortId) (v : Word) (s : State) : Host.Outcome State Fault Refusal :=
  .next (s.hostWrite (Reg.prtI2cCmd p) fun t => t.i2cCmd p ((v ||| 0x80000) &&& 0xBFFFF))

/-- I2C_COMPLETE (R278): the running command of the port's bus ends; a read puts its bytes into DATA, the first into
[15:8]. -/
def execI2cComplete (p : PortId) (ack : Bool) (data : BitVec 16) (s : State) : Host.Outcome State Fault Refusal :=
  .next (
    if s.i2cOwner (busOf p) = some p then
      let w := s.reg (Reg.prtI2cCmd p)
      let s1 :=
        if ack && bitOf w 18 then
          if bitOf w 14 then s.setFld (Reg.prtI2cData p) 0 16 data.toNat
          else s.setFld (Reg.prtI2cData p) 8 8 (data.toNat / 256)
        else s
      s1.i2cFinish p (!ack)
    else s)

/-- AN_DONE (R275): Clause 37 completes. -/
def execAnDone (p : PortId) (s : State) : Host.Outcome State Fault Refusal :=
  .next (
    if s.portRuns p && s.rBit (Reg.prtCtrl p) 13 && s.rBit (Reg.prtStat p) 18 then
      (s.setBit (Reg.prtStat p) 15 true).linkEval p
    else s)

/-- HI_BER_CHANGE (R275). -/
def execHiBerChange (p : PortId) (high : Bool) (s : State) : Host.Outcome State Fault Refusal :=
  .next (if s.portRuns p then (s.setBit (Reg.prtStat p) 17 high).linkEval p else s)

/-- LINK_FAULT_SIGNAL (R275). -/
def execLinkFaultSignal (p : PortId) (fault : Bool) (s : State) : Host.Outcome State Fault Refusal :=
  .next (if s.portRuns p then (s.onPort p fun y => { y with fault := fault }).linkEval p else s)

/-- LAUNCH_PLUCK_FIRE (R152, R296): every armed launch pluck whose firing tick has come hands its frame to the launch
stage. -/
def execLaunchPluckFire (p : PortId) (s : State) : Host.Outcome State Fault Refusal :=
  .next (
    let due := fun (e : Send) => decide (launchTick e.target ≤ s.nut.toNat)
    s.onPort p fun y =>
      { y with launch := y.launch.filter (fun e => !due e),
               stage := (y.launch.filter due).foldl (fun l e => insertStage e l) y.stage })

/-- LAUNCH_DEPART (R294, R296): the first frame of the launch stage departs at its first available start slot, or is LATE
with cause SLOT. -/
def execLaunchDepart (p : PortId) (slot : Nut) (s : State) : Host.Outcome State Fault Refusal :=
  .next (
    match (s.port p).stage with
    | e :: es =>
      if slot.toNat < e.target.toNat || !s.fretIn p then s
      else if slot.toNat ≤ e.target.toNat + 65536 * s.launchTol p then
        s.onPort p fun y => { y with stage := es, depart := y.depart ++ [e] }
      else
        let late := (slot.toNat - e.target.toNat + 163839) / 163840
        ((((s.onPort p fun y => { y with stage := es }).addSat (Reg.prtCnt p 6) 1).orReg (Reg.prtCause p) 0x10000)).endSend e
          (doneOf e 3 late true)
    | [] => s)

/-- PORT_COUNTER_CLR (R431). -/
def execPortCounterClr (p : PortId) (s : State) : Host.Outcome State Fault Refusal :=
  .next (s.hostWrite (Reg.pmcPrtBw p) fun t => t.clearPrtCnt p)

/-- BW_LEN_WRITE (R426): a write of PMC_PRT_BW. -/
def execBwLenWrite (p : PortId) (v : Word) (s : State) : Host.Outcome State Fault Refusal :=
  .next (s.hostWrite (Reg.pmcPrtBw p) fun t => t.prtBwWrite p v)

/-- BW_WINDOW_END (R426): the window ends on an aligned tick. -/
def execBwWindowEnd (p : PortId) (s : State) : Host.Outcome State Fault Refusal :=
  .next (
    if s.nutRun && s.nut.toNat % (s.bwSpan p).toNat == 0 && reached s.nut ((s.port p).bwFrom + s.bwSpan p) then
      s.writeWindow p
    else s)

/-- A write of BRG_SYNCE_CTRL (R208): a change of PG[n] drops transmit lock on the ports of group n (R92, R101, R153). -/
def State.synceCtrl (s : State) (v : Word) : State :=
  let old := s.reg Reg.brgSynceCtrl
  let lock := bitOf old 18 && bitOf v 19 && bitOf old 19
  let s1 := s.setReg Reg.brgSynceCtrl (putBit (v &&& 0x8000F) 18 lock)
  foldFin 24 (fun p u => if bitOf old (p.val / 6) == bitOf v (p.val / 6) then u else u.txLockLost p) s1

/-- SYNCE_CTRL_WRITE (R208). -/
def execSynceCtrlWrite (v : Word) (s : State) : Host.Outcome State Fault Refusal :=
  .next (s.hostWrite Reg.brgSynceCtrl fun t => t.synceCtrl v)

/-- SYNCE_SYNTH_LOCK (R208): LOCK reads 1. -/
def execSynceSynthLock (s : State) : Host.Outcome State Fault Refusal :=
  .next (if s.rBit Reg.brgSynceCtrl 19 then s.setBit Reg.brgSynceCtrl 18 true else s)

end Sys2Proof.Machine
end

