-- ==== Sys2Proof/Machine/Course.lean ====
section
/-! DEFINITION. Courses: steering commits (R286), dispatch and starts (R289, R307, R308, R338), drain and GO (R334, R335), crypto
lanes' faults (R450, R459), scrub errors (R454), and the counter selects (R431, R439). -/

namespace Sys2Proof.Machine

/-! ### Steering (R286) -/

/-- A write of CRS_STEER_ACT (R286, R299): KIND 3 is refused; else the staged VAL and MASK and the action are committed. -/
def State.steerWrite (s : State) (c : CourseId) (e : Nat) (v : Word) : State :=
  if fld v 17 2 = 3 then s.setBit (Reg.crsBufCfg c) 19 true
  else
    let s1 := s.setRegN (steerHeld c e) 5 (s.regN (Reg.crsSteerVal c e) 5)
    let s2 := s1.setRegN (steerHeld c e + 20) 5 (s1.regN (Reg.crsSteerMask c e) 5)
    s2.setReg (Reg.crsSteerAct c e) (v &&& 0xFF800)

/-- STEER_COMMIT (R286). -/
def execSteerCommit (c : CourseId) (e : Fin 64) (v : Word) (s : State) : Host.Outcome State Fault Refusal :=
  .next (s.hostWrite (Reg.crsSteerAct c e) fun t => t.steerWrite c e v)

/-! ### Dispatch (R289, R307, R308, R342) -/

/-- A context may take a work item: its course runs, its string is in service, and it is IDLE (R289, R334). -/
def State.mayTake (s : State) (x : CtxId) : Bool :=
  let c := courseOf x
  s.powered (1 + c.val) && s.crsState c == CS.run && !s.strFenced (strOf x) && (s.ctx x).mode == .idle

/-- A work item loaded into a context (R307, R308, R342): one issue slot, cleared flags and stack; `g` goes to G51 to G63. -/
def State.loadItem (s : State) (x : CtxId) (pc : Nat) (sys : Bool) (g : List Word) (evt : Nat) : State :=
  let st := strOf x
  let s1 := (s.strEvent st evt 1).strEvent st 1 1
  let s2 := if sys then s1.strEvent st 2 1 else s1
  (s2.enterRun x).onCtx x fun c =>
    { c.wr 51 g with sys := sys, pc := BitVec.ofNat 15 pc, fl := Flags.clear, stack := [], issued := 0 }

/-- A class of a course is served by a string (R289): its STRMASK names it, or names no string in service. -/
def State.servedBy (s : State) (c : CourseId) (k : Nat) (st : StrId) : Bool :=
  let mask := s.rFld (Reg.crsClassCfg c k) 16 4
  mask.testBit (st.val % 4) ||
    (courseStrs c).all fun (o : StrId) => !mask.testBit (o.val % 4) || s.strFenced o

/-- PRIO of a class (R289). -/
def State.classPrio (s : State) (c : CourseId) (k : Fin 8) : Fin 4 := Fin.ofNat 4 (s.rFld (Reg.crsClassCfg c k) 14 2)

/-- The class whose oldest descriptor a string takes next (R289): of the lowest PRIO, the first in class order after the one of that
PRIO served last. -/
def State.nextClass (s : State) (st : StrId) : Option (Fin 8) :=
  let c := strCourse st
  let v := s.course c
  let able := (List.finRange 8).filter fun (k : Fin 8) => !(v.classes.get k).isEmpty && s.servedBy c k st
  let first := able.filter fun k => able.all fun o => s.classPrio c k ≤ s.classPrio c o
  let after := fun (k : Fin 8) => (k.val + 7 - v.turn.get (s.classPrio c k)) % 8
  first.find? fun k => first.all fun o => after k ≤ after o

/-- DESCRIPTOR_DISPATCH (R289, R307): an idle context takes a descriptor when no start request waits. -/
def execDescriptorDispatch (x : CtxId) (s : State) : Host.Outcome State Fault Refusal :=
  .next (
    let c := courseOf x
    let v := s.course c
    if s.mayTake x && v.startQ.isEmpty && !v.hostReq then
      match s.nextClass (strOf x) with
      | some k =>
        match v.classes.get k with
        | d :: ds =>
          let e := s.reg (Reg.crsClassEntry c k)
          let buf : Word := d.toArray.getD 5 0
          let s1 := s.onCourse c fun w => { w with classes := vset w.classes k ds, turn := vset w.turn (s.classPrio c k) k.val }
          let s2 := (s1.incReg (Reg.crsClassDisp c k)).loadItem x (fld e 0 15) (bitOf e 19) (0 :: d.toList) 7
          s2.onCtx x fun w => { w with pw := buf, slot := some (buf.toNat / 2048) }
        | [] => s
      | none => s
    else s)

/-- PLUCK_START_DISPATCH (R144, R308): an idle context takes the oldest start request. -/
def execPluckStartDispatch (x : CtxId) (s : State) : Host.Outcome State Fault Refusal :=
  .next (
    let c := courseOf x
    if s.mayTake x then
      match (s.course c).startQ with
      | q :: qs =>
        (s.onCourse c fun w => { w with startQ := qs }).loadItem x (fld q.entry 0 15) (bitOf q.entry 19)
          (0x40000 :: toWords 4 q.nut.toNat ++ [q.arg1, BitVec.ofNat 20 q.pluck.val] ++ List.replicate 6 0) 8
      | [] => s
    else s)

/-- A write of CRS_HOST_CMD (R318, R338): START queues one host start, or is refused; EVT raises HOST. -/
def State.hostCmd (s : State) (c : CourseId) (start evt : Bool) : State :=
  let s1 :=
    if start then
      if (s.course c).hostReq || s.crsState c != CS.run then s.setBit (Reg.crsRun c) 13 true
      else s.onCourse c fun w => { w with hostReq := true }
    else s
  if evt then s1.raiseEvent c 10 else s1

/-- HOST_START (R338). -/
def execHostStart (c : CourseId) (s : State) : Host.Outcome State Fault Refusal :=
  .next (s.hostWrite (Reg.crsHostCmd c) fun t => t.hostCmd c true false)

/-- HOST_START_DISPATCH (R308, R338): an idle context takes the host start, after every pluck's request. -/
def execHostStartDispatch (x : CtxId) (s : State) : Host.Outcome State Fault Refusal :=
  .next (
    let c := courseOf x
    if s.mayTake x && (s.course c).startQ.isEmpty && (s.course c).hostReq then
      let e := s.reg (Reg.crsHostStart c)
      (s.onCourse c fun w => { w with hostReq := false }).loadItem x (fld e 0 15) (bitOf e 19)
        (0x80000 :: s.reg (Reg.crsHostArg c) :: List.replicate 11 0) 8
    else s)

/-- HOST_EVENT (R318, R319). -/
def execHostEvent (c : CourseId) (s : State) : Host.Outcome State Fault Refusal :=
  .next (s.hostWrite (Reg.crsHostCmd c) fun t => t.hostCmd c false true)

/-! ### Drain and GO (R334, R335, R494) -/

/-- A course load holds course c's state (R494). -/
def State.loadHolds (s : State) (c : CourseId) : Bool := s.load.any fun j => j.course == c

/-- A write of DRAIN (R335): RUN to DRAINING, and the DRAIN event wakes its waiters; refused elsewhere. -/
def State.drain (s : State) (c : CourseId) : State :=
  if s.crsState c = CS.run && !s.loadHolds c then
    let s1 := (s.setCrsState c CS.draining).onCourse c fun v => { v with drainAt := some s.nut }
    (courseCtxs c).foldl (fun u x =>
      match (u.ctx x).waiting with
      | some w => if w.names 11 && w.takes u.nut then u.wakeDrain x else u
      | none => u) s1
  else s.setBit (Reg.crsRun c) 13 true

/-- A write of GO (R309, R319, R335): DRAINED or ROM to RUN, with fresh contexts and no pending events; refused elsewhere. -/
def State.goRun (s : State) (c : CourseId) : State :=
  if (s.crsState c = CS.drained || s.crsState c = CS.rom) && !s.loadHolds c then
    ((s.freshCtxs c).clearEvents c).setCrsState c CS.run
  else s.setBit (Reg.crsRun c) 13 true

/-- COURSE_DRAIN (R335). -/
def execCourseDrain (c : CourseId) (s : State) : Host.Outcome State Fault Refusal :=
  .next (s.hostWrite (Reg.crsRun c) fun t => t.drain c)

/-- COURSE_DRAINED (R335): every context is idle or halted with nothing outstanding. -/
def execCourseDrained (c : CourseId) (s : State) : Host.Outcome State Fault Refusal :=
  .next (if s.crsState c = CS.draining && s.allQuiet c then s.enterDrained c else s)

/-- A context in the middle of a work item. -/
def State.busyCtx (s : State) (x : CtxId) : Bool := (s.ctx x).mode != .idle && (s.ctx x).mode != .halted

/-- DRAIN_TIMEOUT (R335): CRS_DRAIN_TMO ms after the drain, what still works is abandoned and counted. -/
def execDrainTimeout (c : CourseId) (s : State) : Host.Outcome State Fault Refusal :=
  .next (
    match (s.course c).drainAt with
    | some t =>
      if s.crsState c = CS.draining && reached s.nut (t + msNut (s.rFld (Reg.crsDrainTmo c) 0 16)) then
        let n := ((courseCtxs c).filter s.busyCtx).length
        ((courseCtxs c).foldl (fun u x => u.abandon x) (s.addSat (Reg.crsDrainKill c) n)).enterDrained c
      else s
    | none => s)

/-- COURSE_GO (R335). -/
def execCourseGo (c : CourseId) (s : State) : Host.Outcome State Fault Refusal :=
  .next (s.hostWrite (Reg.crsRun c) fun t => t.goRun c)

/-! ### Crypto lanes (R450, R459) -/

/-- Lane l of a course, by its number in the device. -/
def laneIx (l : LaneId) : CourseId × Fin 8 := (⟨l.val / 8, by omega⟩, ⟨l.val % 8, by omega⟩)

/-- Lane i of a course is fenced (CRS_LANE.FAULT). -/
def State.laneFenced (s : State) (c : CourseId) (i : Nat) : Bool := s.rBit (Reg.crsLane c) (8 + i)

/-- LANE_FAULT (R450): the lane is fenced, and its job goes ahead of every waiting one. -/
def execLaneFault (l : LaneId) (round : Bool) (s : State) : Host.Outcome State Fault Refusal :=
  .next (
    let (c, i) := laneIx l
    if !s.powered 9 || s.laneFenced c i then s
    else
      let job := ((s.course c).lanes.get i).job
      let tag : Word := match job with
        | some j => BitVec.ofNat 20 (fld j.imm 0 12)
        | none => 0
      let s1 := s.errRecord 11 2 9 l.val (BitVec.ofNat 20 round.toNat) tag
      (s1.setBit (Reg.crsLane c) (8 + i.val) true).onCourse c fun v =>
        { v with lanes := vset v.lanes i Lane.cold, jobs := job.toList ++ v.jobs })

/-- Fenced lanes returned to service (R459). -/
def State.laneWrite (s : State) (c : CourseId) (v : Word) : State :=
  s.setReg (Reg.crsLane c) (s.reg (Reg.crsLane c) &&& ~~~((v &&& 0xFF) <<< 8))

/-- LANE_RESTART (R459). -/
def execLaneRestart (c : CourseId) (v : Word) (s : State) : Host.Outcome State Fault Refusal :=
  .next (s.hostWrite (Reg.crsLane c) fun t => t.laneWrite c v)

/-! ### Scrubbing (R454, R457) -/

/-- A corrected error is counted (R423, R424, R427), where the domain of its memory is on (R432). The lanes' state and the harp
memory have no count. -/
def State.countFixed (s : State) (m : MemKind) (unit : Nat) : State :=
  let crs := fun (c : Nat) => if s.powered (1 + c % 4) then s.crsEvent (Fin.ofNat 4 c) 12 none 1 else s
  let str := fun (st : Nat) => if s.powered (1 + st / 4 % 4) then s.strEvent (Fin.ofNat 16 st) 15 1 else s
  match m with
  | .programTable => crs unit
  | .dataSram => crs unit
  | .packetBuffer => crs unit
  | .registerFile => str unit
  | .stringState => str unit
  | .clientTable => s.count (Cnt.dev 3) 1
  | .pickQueue => s.count (Cnt.dev 3) 1
  | .tdcTable => s.count (Cnt.dev 3) 1
  | .harpMemory => s
  | .laneState => s

/-- SCRUB_ERROR (R454, R457): an uncorrectable word gives a record and is left as found; a corrected word is written back, and
counted. -/
def execScrubError (m : ScrubFind) (unit : Byte) (addr : BitVec 22) (s : State) : Host.Outcome State Fault Refusal :=
  .next (
    let e := (m.kind, unit.toNat, addr.toNat)
    if m.fixed then s.countFixed m.kind unit.toNat
    else
      let s1 := if s.bad.contains e then s else { s with bad := s.bad ++ [e] }
      s1.errRecord 16 0 (memUnit m.kind) unit.toNat (BitVec.ofNat 20 (memCode m.kind * 65536 + addr.toNat / 2 ^ 20))
        (BitVec.ofNat 20 addr.toNat))

/-! ### Counter selects (R431, R439) -/

/-- A write of PMC_STR_SELk (R431, R439). -/
def State.strSelWrite (s : State) (st : StrId) (k : Nat) (v : Word) : State :=
  if 16 ≤ fld v 15 5 then s.setBit (Reg.strStat st) 14 true
  else s.offerCnt (Reg.pmcStrSel st k) [Cnt.str st (2 + k)] (v &&& 0xF8000)

/-- A write of PMC_CRS_SELk (R431, R439). -/
def State.crsSelWrite (s : State) (c : CourseId) (k : Nat) (v : Word) : State :=
  if 14 ≤ fld v 15 5 then s.setBit (Reg.crsRun c) 13 true
  else s.offerCnt (Reg.pmcCrsSel c k) [Cnt.crs c k] (v &&& 0xFF800)

/-- COUNTER_SELECT_WRITE (R431, R439). -/
def execCounterSelectWrite (k : CounterSel) (v : Word) (s : State) : Host.Outcome State Fault Refusal :=
  .next (
    match k with
    | .str st i => s.hostWrite (Reg.pmcStrSel st i) fun t => t.strSelWrite st i v
    | .crs c i => s.hostWrite (Reg.pmcCrsSel c i) fun t => t.crsSelWrite c i v)

/-- BUSY and TOTAL of a string are to be cleared (R431). -/
def State.clearStrCnt (s : State) (st : StrId) : State :=
  s.offerCnt (Reg.pmcStrCtl st) [Cnt.str st 0, Cnt.str st 1] (s.reg (Reg.pmcStrCtl st))

/-- STR_COUNTER_CLR (R431). -/
def execStrCounterClr (st : StrId) (s : State) : Host.Outcome State Fault Refusal :=
  .next (s.hostWrite (Reg.pmcStrCtl st) fun t => t.clearStrCnt st)

end Sys2Proof.Machine
end

