-- ==== Sys2Proof/Machine/Crypto.lean ====
section
/-! DEFINITION. The algorithms of the crypto lanes as the standards that the spec names give them: AES (FIPS 197), CMAC
(RFC 4493), SIV (RFC 5297), SHA-256 (FIPS 180-4) and HMAC (RFC 2104). PRESUMED: the spec names the standards and does not
repeat them (notes/assumptions/33.md). -/

namespace Sys2Proof.Machine

/-! ### AES -/

/-- Multiplication by x in GF(2⁸). -/
def xtime (a : Byte) : Byte := if a.getLsbD 7 then (a <<< 1) ^^^ 0x1B else a <<< 1

/-- Multiplication in GF(2⁸), over the bits of `b` from bit `k` down. -/
def gmulBits (a b : Byte) : Nat → Byte → Byte
  | 0, r => r
  | k + 1, r => gmulBits a b k (xtime r ^^^ if b.getLsbD k then a else 0)

/-- Multiplication in GF(2⁸). -/
def gmul (a b : Byte) : Byte := gmulBits a b 8 0

/-- a²⁵⁴, the inverse in GF(2⁸). -/
def ginv (a : Byte) : Byte :=
  let sq := fun x => gmul x x
  let a2 := sq a
  let a3 := gmul a2 a
  let a12 := sq (sq a3)
  let a15 := gmul a12 a3
  let a240 := sq (sq (sq (sq a15)))
  gmul (gmul a240 a12) a2

/-- The S-box. -/
def sbox (a : Byte) : Byte :=
  let b := ginv a
  b ^^^ b.rotateLeft 1 ^^^ b.rotateLeft 2 ^^^ b.rotateLeft 3 ^^^ b.rotateLeft 4 ^^^ 0x63

/-- Bytes combined by exclusive or. -/
def xorBytes (a b : List Byte) : List Byte := List.zipWith (· ^^^ ·) a b

/-- x^k in GF(2⁸). -/
def gpow : Nat → Byte
  | 0 => 1
  | k + 1 => xtime (gpow k)

/-- One more word of the key schedule, newest first: `i` is its index, `nk` the key's words. -/
def keyWord (nk i : Nat) (ws : List (List Byte)) : List Byte :=
  let prev := ws.headD []
  let old := ws.getD (nk - 1) []
  let t :=
    if i % nk = 0 then xorBytes (((prev.drop 1) ++ prev.take 1).map sbox) [gpow (i / nk - 1), 0, 0, 0]
    else if nk = 8 ∧ i % 8 = 4 then prev.map sbox
    else prev
  xorBytes old t

/-- The key schedule extended by `n` words from index `i`. -/
def keyWords (nk : Nat) : Nat → Nat → List (List Byte) → List (List Byte)
  | 0, _, ws => ws
  | n + 1, i, ws => keyWords nk n (i + 1) (keyWord nk i ws :: ws)

/-- Bytes in groups of `k`, at most `n` groups. -/
def groups (k : Nat) : Nat → List Byte → List (List Byte)
  | 0, _ => []
  | n + 1, bs => if bs.isEmpty then [] else bs.take k :: groups k n (bs.drop k)

/-- The round keys of a 16-byte or 32-byte key. -/
def roundKeys (key : List Byte) : List (List Byte) :=
  let nk := key.length / 4
  let ws := (groups 4 nk key).reverse
  groups 16 (nk + 7) ((keyWords nk (4 * (nk + 7) - nk) nk ws).reverse.flatten)

/-- ShiftRows of a state of 16 bytes, column by column. -/
def shiftRows (s : List Byte) : List Byte :=
  (List.range 16).map fun i => s.getD (4 * ((i / 4 + i % 4) % 4) + i % 4) 0

/-- MixColumns of one column. -/
def mixColumn (c : List Byte) : List Byte :=
  (List.range 4).map fun r =>
    gmul 2 (c.getD r 0) ^^^ gmul 3 (c.getD ((r + 1) % 4) 0) ^^^ c.getD ((r + 2) % 4) 0 ^^^ c.getD ((r + 3) % 4) 0

/-- The rounds after the first key addition; the last one mixes no columns. -/
def aesRounds : List (List Byte) → List Byte → List Byte
  | [], s => s
  | [k], s => xorBytes (shiftRows (s.map sbox)) k
  | k :: ks, s => aesRounds ks (xorBytes ((groups 4 4 (shiftRows (s.map sbox))).flatMap mixColumn) k)

/-- AES encryption of a block under round keys. -/
def aesBlock (rk : List (List Byte)) (b : List Byte) : List Byte := aesRounds rk.tail (xorBytes b (rk.headD []))

/-! ### CMAC -/

/-- A block as a number, most significant byte first. -/
def blockNat (b : List Byte) : Nat := b.foldl (fun n x => n * 256 + x.toNat) 0
/-- A number as `n` bytes, most significant first. -/
def natBytes : Nat → Nat → List Byte
  | 0, _ => []
  | n + 1, v => BitVec.ofNat 8 (v >>> (8 * n)) :: natBytes n v

/-- dbl of a block. -/
def dbl (b : List Byte) : List Byte :=
  let v := blockNat b
  natBytes 16 (if v < 2 ^ 127 then 2 * v else (2 * v % 2 ^ 128) ^^^ 0x87)

/-- Zeros. -/
def zeros (n : Nat) : List Byte := List.replicate n 0

/-- A partial block padded with a one bit and zeros. -/
def pad10 (b : List Byte) : List Byte := b ++ [0x80] ++ zeros (15 - b.length)

/-- CMAC of a message under round keys. -/
def cmacOf (rk : List (List Byte)) (m : List Byte) : List Byte :=
  let k1 := dbl (aesBlock rk (zeros 16))
  let n := max 1 ((m.length + 15) / 16)
  let blocks := groups 16 n m
  let last := blocks.getD (n - 1) []
  let fin := if last.length = 16 then xorBytes last k1 else xorBytes (pad10 last) (dbl k1)
  let c := (blocks.take (n - 1)).foldl (fun c b => aesBlock rk (xorBytes c b)) (zeros 16)
  aesBlock rk (xorBytes c fin)

/-! ### SIV -/

/-- S2V over the associated strings and the plaintext. -/
def s2v (rk : List (List Byte)) (ads : List (List Byte)) (p : List Byte) : List Byte :=
  let d := ads.foldl (fun d a => xorBytes (dbl d) (cmacOf rk a)) (cmacOf rk (zeros 16))
  if 16 ≤ p.length then
    cmacOf rk (p.take (p.length - 16) ++ xorBytes (p.drop (p.length - 16)) d)
  else cmacOf rk (xorBytes (dbl d) (pad10 p))

/-- AES-CTR from a counter over blocks. -/
def ctrBlocks (rk : List (List Byte)) : Nat → List (List Byte) → List Byte
  | _, [] => []
  | q, b :: bs => xorBytes b (aesBlock rk (natBytes 16 q)) ++ ctrBlocks rk ((q + 1) % 2 ^ 128) bs

/-- The counter that a synthetic IV starts: bits 63 and 31 cleared. -/
def sivCounter (v : List Byte) : Nat :=
  let q := blockNat v
  q - (if q.testBit 63 then 2 ^ 63 else 0) - (if q.testBit 31 then 2 ^ 31 else 0)

/-- AES-CTR of SIV. -/
def sivCtr (key v m : List Byte) : List Byte :=
  ctrBlocks (roundKeys (key.drop 16)) (sivCounter v) (groups 16 ((m.length + 15) / 16) m)

/-- AES-SIV-CMAC-256 sealing: V and the ciphertext. -/
def sivSeal (key : List Byte) (ads : List (List Byte)) (p : List Byte) : List Byte :=
  let v := s2v (roundKeys (key.take 16)) ads p
  v ++ sivCtr key v p

/-- AES-SIV-CMAC-256 opening: the plaintext where V verifies. -/
def sivOpen (key : List Byte) (ads : List (List Byte)) (c : List Byte) : Option (List Byte) :=
  let v := c.take 16
  let p := sivCtr key v (c.drop 16)
  if s2v (roundKeys (key.take 16)) ads p = v then some p else none

/-! ### SHA-256 and HMAC -/

/-- The largest r below r₀ + 2^b with r^k ≤ n, from r₀ on, a bit at a time. -/
def rootFrom (k n : Nat) : Nat → Nat → Nat
  | 0, r => r
  | b + 1, r => rootFrom k n b (if (r + 2 ^ b) ^ k ≤ n then r + 2 ^ b else r)

/-- The first 32 bits of the fraction of the k-th root of a prime: where SHA-256 takes its constants from. -/
def rootWord (k p : Nat) : BitVec 32 := BitVec.ofNat 32 (rootFrom k (p * 2 ^ (32 * k)) 37 0)

/-- The primes below a bound. -/
def primesBelow (n : Nat) : List Nat :=
  (List.range n).filter fun p => decide (2 ≤ p) && (List.range p).all fun d => decide (d < 2) || p % d != 0

/-- The 64 round constants: cube roots of the primes below 312. -/
def shaConsts : List (BitVec 32) := (primesBelow 312).map (rootWord 3)

/-- The initial hash value: square roots of the primes below 20. -/
def shaStart : List (BitVec 32) := (primesBelow 20).map (rootWord 2)

/-- A word's rotations by three amounts added without carries; `shift` makes the last a shift. -/
def mixRot (a b c : Nat) (shift : Bool) (w : BitVec 32) : BitVec 32 :=
  [w.rotateRight a, w.rotateRight b, if shift then w >>> c else w.rotateRight c].foldl (· ^^^ ·) 0

/-- The next word of the message schedule from the sixteen before it, oldest first. -/
def nextWord (win : List (BitVec 32)) : BitVec 32 :=
  match win with
  | w0 :: w1 :: rest => w0 + mixRot 7 18 3 true w1 + rest.getD 7 0 + mixRot 17 19 10 true (rest.getD 12 0)
  | _ => 0

/-- The eight working words after a round with what the round adds, a constant and a schedule word: `hi` is the first four, `lo` the
last four. -/
def mixRound (add : BitVec 32) (hi lo : List (BitVec 32)) : List (BitVec 32) × List (BitVec 32) :=
  match hi, lo with
  | [a, b, c, d], [e, f, g, x] =>
    let pick := ((f ^^^ g) &&& e) ^^^ g
    let most := ((b ||| c) &&& a) ||| (b &&& c)
    let t := add + x + pick + mixRot 6 11 25 false e
    ([t + most + mixRot 2 13 22 false a, a, b, c], [d + t, e, f, g])
  | _, _ => (hi, lo)

/-- The rounds of a block: the window holds the sixteen schedule words from this round's on. -/
def mixRounds : List (BitVec 32) → List (BitVec 32) → List (BitVec 32) × List (BitVec 32) → List (BitVec 32) × List (BitVec 32)
  | [], _, v => v
  | k :: ks, win, v => mixRounds ks (win.drop 1 ++ [nextWord win]) (mixRound (k + win.headD 0) v.1 v.2)

/-- One block taken into a hash value. -/
def shaBlock (h : List (BitVec 32)) (b : List Byte) : List (BitVec 32) :=
  let win := (groups 4 16 b).map fun g => (BitVec.ofNat 32 (blockNat g) : BitVec 32)
  let (hi, lo) := mixRounds shaConsts win (h.take 4, h.drop 4)
  (h.zip (hi ++ lo)).map fun x => x.1 + x.2

/-- SHA-256. -/
def sha256 (m : List Byte) : List Byte :=
  let z := (119 - m.length % 64) % 64
  let padded := m ++ [0x80] ++ zeros z ++ natBytes 8 (8 * m.length)
  ((groups 64 (padded.length / 64) padded).foldl shaBlock shaStart).flatMap fun w => natBytes 4 w.toNat

/-- HMAC-SHA256 under a key of at most 64 bytes. -/
def hmacOf (key m : List Byte) : List Byte :=
  let k := key ++ zeros (64 - key.length)
  sha256 (k.map (· ^^^ 0x5C) ++ sha256 (k.map (· ^^^ 0x36) ++ m))

end Sys2Proof.Machine
end

