-- ==== Sys2Proof/Machine/CryptoIns.lean ====
section
/-! DEFINITION. Linkan-20: crypto dispatches (R365 to R369), the lanes that run them, and their completions (R320). -/

namespace Sys2Proof.Machine

/-- The job that a crypto instruction of operation `op` dispatches (R365). -/
def State.jobOf (s : State) (x : CtxId) (f : Fields) (op : Nat) : Job :=
  let g := s.ctx x
  { x := x, item := g.item, op := op, blk := g.rd f.srca.toNat 8, mode := f.mode, imm := f.imm, pw := g.pw }

/-- A completion of a job with a status (R323). -/
def jobDone (j : Job) (status : Nat) (now : Nut) : Done :=
  { at_ := now, crypto := true, status := status, slot := false, tag := BitVec.ofNat 12 (fld j.imm 0 12), t := 0, tg := false,
    calw := false, perNom := false, gen := 0, late := 0 }

/-- A crypto instruction (R320, R365, R369): the third outstanding dispatch stalls; with PD9 off it completes KEY_EMPTY at
once (R478). -/
def State.cryptoOp (s : State) (x : CtxId) (f : Fields) (op : Nat) : State :=
  s.issue x f 1 (f.w == 1 && f.srca.toNat % 8 == 0) fun t =>
    let c := courseOf x
    if 2 ≤ (t.ctx x).jobs then .hold .own
    else
      let j := t.jobOf x f op
      let t1 := t.strEvent (strOf x) 11 1
      if !t1.powered 9 then .go false (t1.queueDone x (jobDone j 2 t1.nut))
      else .go false ((t1.onCourse c fun v => { v with jobs := v.jobs ++ [j] }).onCtx x fun v => { v with jobs := v.jobs + 1 })

/-- SIVS (R366, R367). -/
def execSivs (x : CtxId) (f : Fields) (s : State) : Host.Outcome State Fault Refusal := .next (s.cryptoOp x f 0)
/-- SIVO (R366, R367). -/
def execSivo (x : CtxId) (f : Fields) (s : State) : Host.Outcome State Fault Refusal := .next (s.cryptoOp x f 1)
/-- CMAC (R368). -/
def execCmac (x : CtxId) (f : Fields) (s : State) : Host.Outcome State Fault Refusal := .next (s.cryptoOp x f 2)
/-- HMAC (R368). -/
def execHmac (x : CtxId) (f : Fields) (s : State) : Host.Outcome State Fault Refusal := .next (s.cryptoOp x f 3)

/-- A key slot's KIND is one that an operation takes (R517). -/
def kindFits (op kind : Nat) : Bool :=
  match op with
  | 2 => kind == 1 || kind == 2
  | 3 => kind == 4
  | _ => kind == 3

/-- The KIND under which an operation takes an ephemeral key of 32 bytes (R365; DEDUCED, notes/assumptions/35.md). -/
def ephemeralKind (op : Nat) : Nat := if op = 2 then 2 else if op = 3 then 4 else 3

/-- The key that a job takes when it starts (R365, R367): its slot's, or an ephemeral key of its context's work item; none
where it is empty or of another algorithm. -/
def State.keyOf (s : State) (j : Job) : Option SlotKey :=
  if j.mode.getLsbD 3 then
    let g := s.ctx j.x
    if g.item = j.item then
      match (if j.mode.getLsbD 2 then g.e1 else g.e0) with
      | some k => some { kind := ephemeralKind j.op, bytes := k }
      | none => none
    else none
  else
    match Sparse.find s.keys (fld j.imm 12 8) with
    | some k => if kindFits j.op k.kind then some k else none
    | none => none

/-- The lanes of a course that can take a job. -/
def State.freeLanes (s : State) (c : CourseId) : List (Fin 8) :=
  (List.finRange 8).filter fun (i : Fin 8) => ((s.course c).lanes.get i).job.isNone && !s.laneFenced c i

/-- LANE_JOB_START (R365, R369): the oldest waiting dispatch goes to a free lane, which one the spec leaves open. -/
def execLaneJobStart (c : CourseId) (s : State) : Host.Outcome State Fault Refusal :=
  .next (
    match (s.course c).jobs with
    | j :: js =>
      let ls := s.freeLanes c
      let (v, s1) := s.free 3
      match ls[v.toNat % max 1 ls.length]? with
      | some i => s1.onCourse c fun w => { w with jobs := js, lanes := vset w.lanes i { job := some j, key := s.keyOf j } }
      | none => s
    | [] => s)

/-- Bytes that a lane reads; a damaged one reads as a free value. -/
def State.laneBytes (s : State) (c : CourseId) (a : Nat) : Nat → List Byte × State
  | 0 => ([], s)
  | k + 1 =>
    let (b, s1) := match s.badByte c a 1 with
      | some _ => s.free 8
      | none => s.bufByte c a
    let (bs, s2) := s1.laneBytes c (a + 1) k
    (b :: bs, s2)

/-- The offset and length of region i of a job (R365): 0 AD, 1 nonce, 2 input. -/
def Job.region (j : Job) (i : Nat) : Nat × Nat := (fld (j.blk.getD (2 * i) 0) 0 11, fld (j.blk.getD (2 * i + 1) 0) 0 12)

/-- A job's lengths are refused (R365 to R368): a region beyond the window, an input too short, or a tag longer than the
algorithm's (DEDUCED, notes/assumptions/36.md). -/
def Job.lenBad (j : Job) : Bool :=
  let past := fun (r : Nat × Nat) => decide (2048 < r.1 + r.2)
  let out := (fld (j.blk.getD 6 0) 0 11, if j.op ≤ 1 then j.outLen else j.tagLen)
  past (j.region 2) || past out || (decide (j.op ≤ 1) && (past (j.region 0) || past (j.region 1))) ||
    (j.op == 1 && decide ((j.region 2).2 < (if j.mode.getLsbD 0 then 80 else 16))) ||
    (j.op == 2 && decide (16 < j.tagLen)) || (j.op == 3 && decide (32 < j.tagLen))

/-- A job's ephemeral keys as 64 bytes; a cleared one is sealed as a free value (DESIGN CHOICE, notes/assumptions/37.md). -/
def State.keyBytes (s : State) (j : Job) : List Byte × State :=
  let g := s.ctx j.x
  let one := fun (e : Option (List Byte)) (u : State) =>
    match e with
    | some k => (k, u)
    | none => let (v, u1) := u.free 256; (beBytes 32 v.toNat, u1)
  if g.item = j.item then
    let (a, s1) := one g.e0 s
    let (b, s2) := one g.e1 s1
    (a ++ b, s2)
  else
    let (a, s1) := one none s
    let (b, s2) := one none s1
    (a ++ b, s2)

/-- The ephemeral keys of a job's context set, while its work item runs (R367). -/
def State.setKeys (s : State) (j : Job) (e0 e1 : Option (List Byte)) : State :=
  if (s.ctx j.x).item = j.item then s.onCtx j.x fun c => { c with e0 := e0, e1 := e1 } else s

/-- What a job with legal lengths and a key does (R366 to R368): its status and the state with its output. -/
def State.runJob (s : State) (c : CourseId) (j : Job) (key : List Byte) : Nat × State :=
  let at_ := fun (i : Nat) => j.pw.toNat + (j.region i).1
  let (ad, s1) := s.laneBytes c (at_ 0) (if j.op ≤ 1 then (j.region 0).2 else 0)
  let (nonce, s2) := s1.laneBytes c (at_ 1) (if j.op ≤ 1 then (j.region 1).2 else 0)
  let (inp, s3) := s2.laneBytes c (at_ 2) (j.region 2).2
  let ads := (if ad.isEmpty then [] else [ad]) ++ (if nonce.isEmpty then [] else [nonce])
  let out := j.writes.1
  let cookie := j.mode.getLsbD 0
  match j.op with
  | 0 =>
    if cookie then
      let (ks, s4) := s3.keyBytes j
      (0, s4.storeBytes c out (sivSeal key ads (inp ++ ks)))
    else (0, s3.storeBytes c out (sivSeal key ads inp))
  | 1 =>
    match sivOpen key ads inp with
    | some p =>
      if cookie then
        let n := p.length - 64
        let ks := p.drop n
        (0, (s3.storeBytes c out (p.take n)).setKeys j (some (ks.take 32)) (some (ks.drop 32)))
      else (0, s3.storeBytes c out p)
    | none => (1, if cookie then s3.setKeys j none none else s3)
  | op =>
    let tag := (if op = 2 then cmacOf (roundKeys key) inp else hmacOf key inp).take j.tagLen
    if cookie then
      let (held, s4) := s3.laneBytes c (j.pw.toNat + fld (j.blk.getD 6 0) 0 11) j.tagLen
      (if held = tag then 0 else 1, s4)
    else (0, s3.storeBytes c out tag)

/-- A lane's read of a damaged byte is recorded (R454). -/
def State.laneEcc (s : State) (c : CourseId) (j : Job) : State :=
  match j.reads.findSome? fun r => s.badByte c r.1 r.2 with
  | some b => s.eccHw .packetBuffer c.val b
  | none => s

/-- A job's status and effect (R365 to R368): LEN_ERR, then KEY_EMPTY, then its run. -/
def State.jobResult (s : State) (c : CourseId) (l : Lane) (j : Job) : Nat × State :=
  if j.lenBad then (3, s)
  else
    match l.key with
    | none => (2, s)
    | some k => (s.laneEcc c j).runJob c j k.bytes

/-- A job's completion told to its context, while its work item runs (R320, R325). -/
def State.tellJob (s : State) (j : Job) (status : Nat) : State :=
  let t := (s.onCtx j.x fun c => { c with jobs := c.jobs - 1 }).unstall j.x
  if (t.ctx j.x).item = j.item then t.queueDone j.x (jobDone j status t.nut) else t

/-- CRYPTO_COMPLETE (R320, R365 to R369): the lane's job completes and its context is told. -/
def execCryptoComplete (l : LaneId) (s : State) : Host.Outcome State Fault Refusal :=
  .next (
    let (c, i) := laneIx l
    let v := (s.course c).lanes.get i
    match v.job with
    | some j =>
      let (status, s1) := s.jobResult c v j
      let s2 := (s1.onCourse c fun w => { w with lanes := vset w.lanes i Lane.cold }).crsEvent c 5 none 1
      let s3 := if status = 1 then s2.crsEvent c 6 none 1 else s2
      s3.tellJob j status
    | none => s)

end Sys2Proof.Machine
end

