-- ==== Sys2Proof/Machine/Host.lean ====
section
/-! DEFINITION. Commands of the DMA rings, the dump engine, the legacy counter window and the key slots (R290, R291, R433
to R436, R513 to R518). -/

namespace Sys2Proof.Machine

/-! ### Receive rings -/

/-- PUNT_COPY (R290, R448, R512): the first punt of the course is offered to its ring. A damaged byte of the frame
drops it, with an ECC_HW record. -/
def execPuntCopy (c : CourseId) (s : State) : Host.Outcome State Fault Refusal :=
  .next (
    match (s.course c).punts with
    | u :: us =>
      let s1 := s.onCourse c fun v => { v with punts := us }
      match u.slot with
      | some k =>
        match s1.badByte c (k * 2048) u.frame.length with
        | some a => (s1.eccHw .packetBuffer c.val a).puntDrop c u
        | none => s1.puntOffer c u
      | none => s1.puntOffer c u
    | [] => s)

/-- RX_RING_RECORD (R512, R513): a record is written where the ring has room; a punt's is dropped and counted where it has
none (R290), and a pick's waits in its queue (R118). -/
def execRxRingRecord (r : RingId) (rec_ : RxRecord) (s : State) : Host.Outcome State Fault Refusal :=
  .next (
    match rec_ with
    | .pick e p =>
      let bs := pickRecord (ofWords e.toList) p.val
      if s.rxRoom r bs.length then s.rxWrite r bs else s
    | .punt c d f => s.puntOffer c { ring := r, desc := d, frame := f, slot := none })

/-! ### Transmit rings -/

/-- TX_DOORBELL (R515): a write of DEV_TXt_TAIL. -/
def execTxDoorbell (t : RingId) (v : Word) (s : State) : Host.Outcome State Fault Refusal :=
  .next (s.hostWrite (Reg.devTxTail t) fun u => u.tailWrite t v)

/-- TX_RING_FETCH (R291, R514, R515): the next entry is taken; one in error completes at once, and one without a free slot
waits. -/
def execTxRingFetch (t : RingId) (e : TxEntry) (frame : List Byte) (err : Bool) (s : State) :
    Host.Outcome State Fault Refusal :=
  .next (
    if !s.mayFetch t then s
    else
      let j := s.rFld (Reg.devTxHead t) 0 16
      let took := fun (u : State) => u.setReg (Reg.devTxHead t) (BitVec.ofNat 20 ((j + 1) % 65536))
      let fail := fun (st : Nat) => (took s).ringDone t j (ringCompletion false (ringError st))
      if 23 < e.port.toNat then fail 7
      else if e.len.toNat < 60 || 2044 < e.len.toNat then fail 8
      else if err then fail 10
      else
        match s.takeSlot (ringCourse t) with
        | none => s
        | some (k, s1) =>
          (took (s1.storeBytes (ringCourse t) (k * 2048) (frame.take e.len.toNat))).ringSend t j k e)

/-- TX_RING_COMPLETE (R515): the next completion of the ring is written to its entry, and DONE advances. -/
def execTxRingComplete (t : RingId) (s : State) : Host.Outcome State Fault Refusal :=
  .next (
    match (s.txRings.get t).wait with
    | (j, bs) :: ws =>
      if s.dmaUp then ({ s with txRings := vset s.txRings t { s.txRings.get t with wait := ws } }).ringWrite t j bs else s
    | [] => s)

/-- A write of a ring's CTRL. -/
def State.ringCtrlWrite (s : State) (r : RingSel) (v : Word) : State :=
  match r with
  | .rx i => s.hostWrite (Reg.devRxCtrl i) fun u => u.rxCtrlWrite i v
  | .tx i => s.hostWrite (Reg.devTxCtrl i) fun u => u.txCtrlWrite i v

/-- RING_ENABLE (R516). -/
def execRingEnable (r : RingSel) (v : Word) (s : State) : Host.Outcome State Fault Refusal := .next (s.ringCtrlWrite r v)

/-- RING_DISABLE (R516). -/
def execRingDisable (r : RingSel) (v : Word) (s : State) : Host.Outcome State Fault Refusal := .next (s.ringCtrlWrite r v)

/-! ### Dumps and the legacy window -/

/-- The bytes of a record in host memory (R433), its LOST flag added (R434, R435). -/
def recordBytes (ws : List Word) (lost : Bool) : List Byte :=
  (ws.zipIdx.map fun (w, i) => if i = 7 ∧ lost then w ||| 0x40000 else w).flatMap fun w => leBytes 4 w.toNat

/-- DUMP_RECORD_WRITE (R433, R434): the record that is due is written to its entry; it is lost where the DMA engine may no longer
write it. -/
def execDumpRecordWrite (s : State) : Host.Outcome State Fault Refusal :=
  .next (
    let wr := s.rFld Reg.dmpWr 0 16
    let sz := 2 ^ s.rFld Reg.dmpCtrl 0 4
    if !s.rBit Reg.dmpStat 18 then s
    else if s.dmaUp then
      let s1 := s.hostStore (s.hostBase Reg.dmpBase + 8192 * (wr % sz)) (recordBytes s.bank s.dumpLost)
      { ((s1.setReg Reg.dmpWr (BitVec.ofNat 20 ((wr + 1) % 65536))).orReg Reg.dmpCause 0x80000).setBit Reg.dmpStat 18 false with
        dumpLost := false }
    else s.recordLost)

/-- LEG_WINDOW_READ (R429, R436): a read of PMC_LEG_VAL0. -/
def execLegWindowRead (s : State) : Host.Outcome State Fault Refusal :=
  .next (if s.hostReads Reg.pmcLegVal then s.legCapture else s)

/-- LEG_VAL2_READ (R436): a read of PMC_LEG_VAL2 with AUTOINC advances NUM. -/
def execLegVal2Read (s : State) : Host.Outcome State Fault Refusal :=
  .next (
    if s.hostReads Reg.pmcLegVal && s.rBit Reg.pmcLegSel 19 then
      s.setFld Reg.pmcLegSel 0 12 (legNext (s.rFld Reg.pmcLegSel 0 12))
    else s)

/-! ### Keys -/

/-- KEY_CMD_EMPTY (R517). -/
def execKeyCmdEmpty (slot : Fin 256) (s : State) : Host.Outcome State Fault Refusal :=
  .next (s.hostWrite Reg.keyCmd fun u => u.keyCmdWrite 0 0 slot.val)

/-- KEY_CMD_CMAC128 (R517). -/
def execKeyCmdCmac128 (slot : Fin 256) (s : State) : Host.Outcome State Fault Refusal :=
  .next (s.hostWrite Reg.keyCmd fun u => u.keyCmdWrite 1 0 slot.val)

/-- KEY_CMD_CMAC256 (R517). -/
def execKeyCmdCmac256 (slot : Fin 256) (s : State) : Host.Outcome State Fault Refusal :=
  .next (s.hostWrite Reg.keyCmd fun u => u.keyCmdWrite 2 0 slot.val)

/-- KEY_CMD_SIV (R517). -/
def execKeyCmdSiv (slot : Fin 256) (s : State) : Host.Outcome State Fault Refusal :=
  .next (s.hostWrite Reg.keyCmd fun u => u.keyCmdWrite 3 0 slot.val)

/-- KEY_CMD_HMAC (R517, R518). -/
def execKeyCmdHmac (slot : Fin 256) (len : BitVec 7) (s : State) : Host.Outcome State Fault Refusal :=
  .next (s.hostWrite Reg.keyCmd fun u => u.keyCmdWrite 4 len.toNat slot.val)

end Sys2Proof.Machine
end

