-- ==== Sys2Proof/Machine/Image.lean ====
section
/-! DEFINITION. The Camilot image as the loader reads it from the flash (R482 to R486): its words, header, sections and
check word, and the check that fails first. -/

namespace Sys2Proof.Machine

/-- The 32-bit groups of the flash, little-endian (R482); a last group that is cut short reads 0xFF beyond its end. -/
def flashGroups : List Byte → List Nat
  | a :: b :: c :: d :: l => (a.toNat + b.toNat * 2 ^ 8 + c.toNat * 2 ^ 16 + d.toNat * 2 ^ 24) :: flashGroups l
  | [] => []
  | l => [((l ++ [0xFF, 0xFF, 0xFF]).take 4).foldr (fun (x : Byte) n => n * 256 + x.toNat) 0]

/-- The image words: bits [31:20] of a group carry no value (R482). -/
def imageWords (flash : List Byte) : List Word := (flashGroups flash).map (BitVec.ofNat 20)

/-- Image word w; an erased flash reads all ones. -/
def imageWord (ws : List Word) (w : Nat) : Word := ws.getD w 0xFFFFF

/-- The header (R483). -/
structure ImageHeader where
  format : Nat
  compat : Nat
  ver    : Nat
  length : Nat
  nsec   : Nat
  pwrOn  : Nat
  go     : Nat
  deriving DecidableEq, Repr

/-- The header's fields (R483). -/
def imageHeader (ws : List Word) : ImageHeader :=
  let w := imageWord ws
  { format := fld (w 2) 12 8, compat := fld (w 2) 0 8, ver := (w 3).toNat + (w 4).toNat * 2 ^ 20,
    length := ((w 5).toNat + (w 6).toNat * 2 ^ 20) % 2 ^ 23, nsec := fld (w 7) 0 12, pwrOn := fld (w 8) 0 12, go := fld (w 9) 0 4 }

/-- A section (R484): TYPE, TARGET, START, COUNT and the words of its items. -/
structure ImageSection where
  type   : Nat
  target : Nat
  start  : Nat
  count  : Nat
  items  : List Word
  deriving DecidableEq, Repr

/-- The words of an item of a TYPE (R484). -/
def itemWords (type : Nat) : Nat :=
  match type with
  | 1 => 2
  | 2 => 3
  | 5 => 4
  | 6 => 2
  | _ => 1

/-- The items that a TYPE's memory holds, where it has a range (R486). -/
def memItems (type : Nat) : Option Nat :=
  match type with
  | 2 => some 32768
  | 3 => some (2 ^ 19)
  | 4 => some (2 ^ 22)
  | 5 => some 79
  | _ => none

/-- A section header that R486 refuses. -/
def ImageSection.bad (x : ImageSection) : Bool :=
  x.type == 0 || decide (7 ≤ x.type) || (if x.type == 2 || x.type == 3 then decide (3 < x.target) else x.target != 0) ||
    match memItems x.type with
    | some n => decide (n < x.start + x.count)
    | none => false

/-- `n` sections read from the words that follow the header; none where one is refused or runs past the words (R484, R486).
The words left over follow the last section. -/
def readSections : Nat → List Word → Option (List ImageSection × List Word)
  | 0, ws => some ([], ws)
  | n + 1, ws =>
    match ws with
    | a :: b :: c :: d :: e :: _ :: rest =>
      let type := fld a 16 4
      let count := (d.toNat + e.toNat * 2 ^ 20) % 2 ^ 23
      let len := count * itemWords type
      let x : ImageSection :=
        { type := type, target := fld a 12 4, start := (b.toNat + c.toNat * 2 ^ 20) % 2 ^ 22, count := count,
          items := rest.take len }
      if x.bad || x.items.length != len then none
      else
        match readSections n (rest.drop len) with
        | some (xs, left) => some (x :: xs, left)
        | none => none
    | _ => none

/-- The sections of an image, which end exactly at its check word (R486). -/
def imageSections (ws : List Word) : Option (List ImageSection) :=
  let h := imageHeader ws
  match readSections h.nsec ((ws.take (h.length - 2)).drop 16) with
  | some (xs, left) => if left.isEmpty && decide (h.length ≤ ws.length) then some xs else none
  | none => none

/-- The CRC-32C of an image's bytes before its check word (R485). -/
def imageCrc (flash : List Byte) : Nat := (crc32c 0xFFFFFFFF (flash.take (4 * ((imageHeader (imageWords flash)).length - 2)))).toNat

/-- The check of the header that fails first, as its REASON: 1 NO_FLASH, 2 BAD_MAGIC, 3 BAD_FORMAT, 4 BAD_LENGTH; 0 where all
pass (R486). -/
def headerReason (flash : List Byte) : Nat :=
  let ws := imageWords flash
  let h := imageHeader ws
  let first := (flash ++ List.replicate 64 0xFF).take 64
  if first.all (· == 0xFF) || first.all (· == 0) then 1
  else if imageWord ws 0 != 0xCA311 || imageWord ws 1 != 0x07A1E then 2
  else if h.format != 1 then 3
  else if h.length < 24 || 4194304 < h.length || !h.pwrOn.testBit 0 || !h.pwrOn.testBit 11 ||
      (List.range 6).any (fun i => imageWord ws (10 + i) != 0) then 4
  else 0

/-- The sections pass (R486, BAD_SECTION). -/
def sectionsOk (flash : List Byte) : Bool := (imageSections (imageWords flash)).isSome

/-- The image's check word (R485). -/
def checkWord (ws : List Word) : Nat :=
  let n := (imageHeader ws).length
  (imageWord ws (n - 2)).toNat + fld (imageWord ws (n - 1)) 0 12 * 2 ^ 20

/-- The check that fails first, as its REASON; 0 where the image is accepted (R486). -/
def imageReason (flash : List Byte) : Nat :=
  let r := headerReason flash
  if r != 0 then r
  else if !sectionsOk flash then 5
  else if imageCrc flash != checkWord (imageWords flash) then 6
  else 0

/-- The sections of an accepted image, in image order. -/
def acceptedSections (flash : List Byte) : List ImageSection := (imageSections (imageWords flash)).getD []

/-- Items of `k` words. -/
def itemGroups (k : Nat) : Nat → List Word → List (List Word)
  | 0, _ => []
  | n + 1, ws => ws.take k :: itemGroups k n (ws.drop k)

/-- The items of a section. -/
def ImageSection.groups (x : ImageSection) : List (List Word) := itemGroups (itemWords x.type) x.count x.items

end Sys2Proof.Machine
end

