-- ==== Sys2Proof/Machine/Scopes.lean ====
section
/-! DEFINITION. The reset scopes and the power domains as operations: course, host-domain, warm and cold reset (R470 to R475),
what a void crossing discards (R465), and a domain's way off and on (R476 to R478). -/

namespace Sys2Proof.Machine

/-! ### What a void crossing discards (R465) -/

/-- What is left of a pluck's requests when crossing x becomes void: one that waits is discarded; one that crosses stands where it
had been copied (`cp`). -/
def cutReqs (x : Fin 56) (cp : Bool) (p : Pluck) : Pluck :=
  { p with pend := p.pend.filter fun r => r.xing != x || cp, next := p.next.filter fun r => r.xing != x }

/-- A general pluck's requests of a void crossing (R465). -/
def State.cutGen (s : State) (x : Fin 56) (cp : List Xfer) (g : PluckId) : State :=
  let q := cutReqs x (cp.contains (.gen g)) (s.plucks.get g)
  (((s.setPluck g q).setBit (Reg.plkStat g) 18 q.pend.isSome).setBit (Reg.plkStat g) 17 q.next.isSome).startGen g

/-- An edge pluck's requests of a void crossing (R465). -/
def State.cutEdge (s : State) (x : Fin 56) (cp : List Xfer) (o : OutId) : State :=
  let e := s.edges.get o
  let q := cutReqs x (cp.contains (.edge o)) e.pluck
  (((s.setEdge o { e with pluck := q }).setBit (Reg.plkEdgeStat o) 18 q.pend.isSome).setBit (Reg.plkEdgeStat o) 10
    q.next.isSome).startEdge o

/-- A tuning's requests of a void crossing (R465): what is discarded does not advance GEN. -/
def State.cutCommits (s : State) (x : Fin 56) (cp : List Xfer) (t : TunId) : State :=
  let u := s.tunings.get t
  let h := u.host.filter fun c => c.xing != x || cp.contains (.commit t)
  let n := u.hostNext.filter fun c => c.xing != x
  let ps := u.progs.filter fun e => crsXing e.course != x || cp.contains (.prog t e.x)
  ((({ s with tunings := vset s.tunings t { u with host := h, hostNext := n, progs := ps } }).setBit (Reg.tunStatus t) 17
    h.isSome).setBit (Reg.tunStatus t) 16 n.isSome).startCommit t

/-- A counter register's write of a void crossing 49 (R431, R465): the register shows its old word where the write is discarded. -/
def State.cutCnt (s : State) (cp : List Xfer) (a : Nat) (q : CntReq) : State :=
  if q.at_.isSome && cp.contains (.cnt a) then
    { s with cntReq := Sparse.insert s.cntReq a { q with next := none } }.setReg a q.val
  else { s with cntReq := Sparse.erase s.cntReq a }.setReg a q.old

/-- The transfers of a crossing that becomes void (R465): those that had been copied stand, the others are discarded. -/
def State.cutX (s : State) (x : Fin 56) : State :=
  let (cp, s1) := s.copied x
  let s2 := foldFin 256 (fun g u => u.cutGen x cp g) (foldFin 16 (fun t u => u.cutCommits x cp t) s1)
  let s3 := foldFin 8 (fun o u => u.cutEdge x cp o) s2
  let s4 := if x = 49 then s3.cntReq.foldl (fun u e => u.cutCnt cp e.1 e.2) s3 else s3
  { s4 with flight := s4.flight.filter fun e => e.1 != x || cp.contains e.2 }

/-- A counter register's write that waits for the handshake arrives (R431, R466). -/
def State.startCnt (s : State) (a : Nat) (q : CntReq) : State :=
  if q.at_.isSome then s
  else { s with cntReq := Sparse.insert s.cntReq a { q with at_ := some s.nut } }.depart 49 (.cnt a)

/-- What waits for a crossing's handshake starts to cross (R466). -/
def State.startX (s : State) : State :=
  let s1 := foldFin 256 (fun g u => u.startGen g) (foldFin 16 (fun t u => u.startCommit t) s)
  let s2 := foldFin 8 (fun o u => u.startEdge o) s1
  if s2.isVoid 49 then s2 else s2.cntReq.foldl (fun u e => u.startCnt e.1 e.2) s2

/-! ### Course reset (R20, R470, R472, R475) -/

/-- A send of a course in reset ends: a ring's entry completes, and a context's completion is discarded. -/
def State.cutSend (s : State) (e : Send) (d : Done) : State :=
  match e.ring with
  | some (t, j) => s.ringDone t j (ringCompletion e.report d)
  | none => s

/-- The sends of course c that no port has in its fill stage end ABORT: the packet buffer is lost (DEDUCED,
notes/assumptions/44.md). -/
def State.cutSends (s : State) (c : CourseId) (p : PortId) : State :=
  let y := s.port p
  let mine := fun (e : Send) => e.course == c
  let es := y.queues.get c ++ y.launch.filter mine ++ y.stage.filter mine ++ y.depart.filter mine
  let rest := fun (l : List Send) => l.filter fun e => !mine e
  es.foldl (fun u e => u.cutSend e (doneOf e 2 0 false))
    (s.onPort p fun y =>
      { y with queues := vset y.queues c [], launch := rest y.launch, stage := rest y.stage, depart := rest y.depart })

/-- The slots of course c whose frames are in a fill stage. -/
def State.fillSlots (s : State) (c : CourseId) : List Nat :=
  s.ports.toList.flatMap fun p => (p.fill.filter fun f => f.send.course == c).map fun f => f.send.slot

/-- A memory that course reset returns to its reset value or loses (R472): its damaged words are gone. -/
def courseMem (c : Nat) (e : MemKind × Nat × Nat) : Bool :=
  match e.1 with
  | .packetBuffer => e.2.1 == c
  | .registerFile => e.2.1 / 4 == c
  | .stringState => e.2.1 / 4 == c
  | .laneState => e.2.1 / 8 == c
  | _ => false

/-- The program table and data SRAM of a course lost (R472, R493). -/
def State.loseCode (s : State) (c : CourseId) : State :=
  { s.onCourse c fun v => { v with prog := Memory.lost, data := Memory.lost } with
    bad := s.bad.filter fun e => !((e.1 == .programTable || e.1 == .dataSram) && e.2.1 == c.val) }

/-- A course load ends (R493). -/
def State.loadEnd (s : State) (result : Nat) : State :=
  { ((s.setFld Reg.cfgLoad 13 3 result).setBit Reg.cfgLoad 12 false).orReg Reg.cfgCause 0x20000 with load := none }

/-- A reset or power-down of course c ends a load of it whose image passes its checks (R493, ABORTED). -/
def State.abortLoad (s : State) (c : CourseId) : State :=
  match s.load with
  | some j =>
    if j.course == c && imageReason j.flash == 0 then
      ((s.loseCode c).loadEnd 5).onCourse c fun v => { v with toRom := true }
    else s
  | none => s

/-- The sends of a context in a fill stage, which outlive a reset of its course. -/
def State.fillsOf (s : State) (x : CtxId) : Nat :=
  (s.ports.toList.map fun p => (p.fill.filter fun f => f.send.x.any fun (a : CtxId × Nat) => a.1 == x).length).sum

/-- The contexts and strings of a course at their reset values (R309, R333, R472). -/
def State.resetStrings (s : State) (c : CourseId) : State :=
  (courseStrs c).foldl (fun u st => u.setFld (Reg.strStat st) 15 5 0)
    ((courseCtxs c).foldl (fun u x => u.onCtx x fun v => { Ctx.cold with item := v.item + 1, sends := s.fillsOf x }) s)

/-- Course reset (R20, R472, R475): frames still queued count in HOME_DOWN, punts accepted and not yet copied are dropped and counted
(DESIGN CHOICE, notes/assumptions/162.md), contexts, strings, queues, lanes and event counts return to their reset values, the packet
buffer is lost, and the course's crossing is void. -/
def State.courseReset (s : State) (c : CourseId) : State :=
  let v := s.course c
  let s1 := v.classes.toList.flatten.foldl (fun u (d : Vector Word 12) =>
    u.addSat (Reg.prtCnt (fld (d.toArray.getD 4 0) 12 5) 4) 1) s
  let s2 := v.punts.foldl (fun u p => u.puntDrop c p) s1
  let s3 := v.sent.foldl (fun u e => u.cutSend e.send e.d) s2
  let s4 := foldFin 24 (fun p u => u.cutSends c p) s3
  let keep := s4.fillSlots c
  let s5 := (s4.resetStrings c).onCourse c fun w =>
    { Course.cold with used := keep, sending := keep, prog := w.prog, data := w.data, toRom := w.toRom }
  let s6 := (List.range 11).foldl (fun u e => u.setReg (Reg.crsEvt c e) 0) (s5.setReg (Reg.crsLane c) 0)
  let s7 := ({ s6 with bad := s6.bad.filter fun e => !courseMem c.val e }).voidX (crsXing c)
  ((s7.cutX (crsXing c)).setCrsState c CS.reset).abortLoad c

/-- The end of course reset (R452, R475): the course enters DRAINED, or ROM after a power-up or an aborted load, and a
hard-fenced replica is reloaded. A warm reset keeps the course in reset. -/
def State.courseRelease (s : State) (c : CourseId) : State :=
  let i : ReplicaId := ⟨c.val, by omega⟩
  let r := s.replicas.get i
  let s1 := if r.fence = .hard then { s with replicas := vset s.replicas i { r with fence := .fenced, fails := [] } } else s
  if !s.powered (1 + c.val) || s.rBit Reg.pwrStat 18 then s1
  else if (s.course c).toRom then (s1.setCrsState c CS.rom).onCourse c fun v => { v with toRom := false }
  else s1.enterDrained c

/-- A write of DEV_CRS_RST (R475, R481). -/
def State.devCrsRstWrite (s : State) (v : Word) : State :=
  let old := s.reg Reg.devCrsRst
  foldFin 4 (fun c u =>
    if bitOf v c && !bitOf old c then u.courseReset c
    else if !bitOf v c && bitOf old c then u.courseRelease c
    else u) (s.setReg Reg.devCrsRst (v &&& 0xF))

/-! ### Host-domain reset (R434, R447, R465, R472, R503) -/

/-- A send whose ring no longer takes its completion. -/
def Send.noRing (e : Send) : Send := { e with ring := none }

/-- The DMA engines and ring registers at their reset values (R434, R472, R516): what they were writing is abandoned. -/
def State.dmaReset (s : State) : State :=
  let s1 := if s.rBit Reg.dmpStat 18 then s.recordLost else s
  let s2 := (s1.clearRegs (Reg.devRxCtrl 0) (Reg.devTxCtrl 8)).clearRegs Reg.dmpCtrl (Reg.dmpCtrl + 4)
  let s3 := (s2.clearRegs Reg.dmpBase Reg.dmpSeq).setReg Reg.irqCtrl 0
  { s3 with
    txRings := Vector.replicate 8 TxRing.cold, rxLost := Vector.replicate 8 false,
    ports := s3.ports.map fun y =>
      { y with queues := y.queues.map fun q => q.map Send.noRing, launch := y.launch.map Send.noRing,
               stage := y.stage.map Send.noRing, depart := y.depart.map Send.noRing,
               fill := y.fill.map fun f => { f with send := f.send.noRing } },
    courses := s3.courses.map fun v => { v with sent := v.sent.map fun u => { u with send := u.send.noRing } } }

/-- Host-domain reset (R470, R472): IRQ_CTRL, the DMA engines, the link and the shadows return to their reset values, and the
PCIe island's crossing is void. -/
def State.hostReset (s : State) : State :=
  let s1 := ((s.dmaReset.setReg Reg.devPcieStat 0).voidX 49).cutX 49
  { s1 with rdShadow := [], wrShadow := [] }

/-! ### Ports -/

/-- Port reset of a port with what it means to the FMUs (R168, R274). -/
def State.portScope (s : State) (p : PortId) : State := (s.portReset p).recoveryLost p

/-- The ports of group n. -/
def groupPorts (n : Nat) : List PortId := (List.finRange 24).filter fun (p : PortId) => p.val / 6 == n

/-! ### Power domains (R476 to R478) -/

/-- Every crypto dispatch of a course completes KEY_EMPTY (R478). -/
def State.jobsEmpty (s : State) (c : CourseId) : State :=
  let v := s.course c
  let js := v.lanes.toList.filterMap (fun l => l.job) ++ v.jobs
  let s1 := s.onCourse c fun w => { w with jobs := [], lanes := Vector.replicate 8 Lane.cold }
  js.foldl (fun u j => u.tellJob j 2) s1

/-- The lines of a domain that goes off keep both tables and discard the table in progress (R77). -/
def State.linesOff (s : State) (d : Nat) : State :=
  { s with lines := Vector.ofFn fun (l : LineId) =>
      if lineDomain l = d then (s.lines.get l).dropTable else s.lines.get l }

/-- A domain enters the reset of its scope, and its crossings are void (R477). -/
def State.domainScope (s : State) (d : DomainId) : State :=
  if h : 1 ≤ d.val ∧ d.val ≤ 4 then s.courseReset ⟨d.val - 1, by omega⟩
  else if 5 ≤ d.val && d.val ≤ 8 then ((groupPorts (d.val - 5)).foldl (fun u p => u.portScope p) s).linesOff d.val
  else if d.val = 9 then foldFin 4 (fun c u => u.jobsEmpty c) s
  else if d.val = 10 then s.harpReset
  else if d.val = 11 then s.hostReset
  else s

/-- The next domain whose switch and state differ starts its transition, lowest number first, when none is in transition
(R477). -/
def State.serveDomain (s : State) : State :=
  if s.power.trans.isSome || s.power.phase != .up then s
  else
    match (List.finRange 12).find? fun (d : DomainId) => s.rBit Reg.pwrCtrl d != s.powered d with
    | some d =>
      let on := s.rBit Reg.pwrCtrl d
      let s1 := ({ s with power := { s.power with trans := some (d, on) } }).setBit Reg.pwrStat 19 true
      if on then s1 else (s1.domainScope d).setBit Reg.pwrStat d false
    | none => s

/-- A write of PWR_CTRL.ON (R476, R481): bit 0 stays 1. -/
def State.pwrCtrlWrite (s : State) (v : Word) : State := (s.setReg Reg.pwrCtrl ((v &&& 0xFFF) ||| 1)).serveDomain

/-- The damaged words of a domain's memories, whose check bits match at a power-up (R472). -/
def domainMem (d : Nat) (e : MemKind × Nat × Nat) : Bool :=
  match e.1 with
  | .programTable => e.2.1 + 1 == d
  | .dataSram => e.2.1 + 1 == d
  | .packetBuffer => e.2.1 + 1 == d
  | .harpMemory => d == 10
  | .laneState => d == 9
  | _ => false

/-- What a domain loses when its supply is removed (R36, R476): and the speed monitor of a course. -/
def State.domainLoss (s : State) (d : DomainId) : State :=
  if h : 1 ≤ d.val ∧ d.val ≤ 4 then
    let c : CourseId := ⟨d.val - 1, by omega⟩
    ((s.loseCode c).onCourse c fun v => { v with buf := Memory.lost, toRom := true }).setBit (Reg.crsSpeed c) 19 false
  else if d.val = 9 then { s with keys := [] }
  else if d.val = 10 then s.harpMemLost
  else s

/-- A course comes up (R309, R476): it enters ROM, unless a hold or a warm reset keeps it in course reset. -/
def State.courseUp (s : State) (c : CourseId) : State :=
  let s1 := { s with speedAt := vset s.speedAt c s.nut }
  if s1.rBit Reg.devCrsRst c || s1.rBit Reg.pwrStat 18 then s1.onCourse c fun v => { v with toRom := true }
  else (s1.setCrsState c CS.rom).onCourse c fun v => { v with toRom := false }

/-- A domain leaves its power-up reset (R476, R478). -/
def State.domainUp (s : State) (d : DomainId) : State :=
  let s1 := ({ s with bad := s.bad.filter fun e => !domainMem d.val e }).setBit Reg.pwrStat d true
  if h : 1 ≤ d.val ∧ d.val ≤ 4 then s1.courseUp ⟨d.val - 1, by omega⟩
  else if d.val = 11 then s1.hostReset
  else if d.val = 10 then s1.harpUp
  else s1

/-- The transition of domain d completes (R477): PWR_CAUSE.DOMAIN_DONE is set, and the next one starts. -/
def State.domainDone (s : State) (d : DomainId) (on : Bool) : State :=
  if s.power.trans = some (d, on) then
    let s1 := ({ s with power := { s.power with trans := none } }).setBit Reg.pwrStat 19 false
    let s2 := if on then s1.domainUp d else s1.domainLoss d
    (s2.orReg Reg.pwrCause 0x80000).serveDomain
  else s

/-! ### Cold reset (R470, R472) -/

/-- Cold reset from a source (R470, R472, R481): every piece of state at its cold-reset value but the levels of the pins, the
JTAG port (R551) and the last sample of LO_SEL (R540). -/
def State.coldReset (s : State) (src : Nat) : State :=
  let r := State.reset
  let r1 : State :=
    { r with
      power := { r.power with rstLow := s.power.rstLow, perstLow := s.power.perstLow, loIn := s.power.loIn, jtag := s.power.jtag,
                              bsr := s.power.bsr },
      hostMem := s.hostMem, freeCtr := s.freeCtr, pending := s.pending }
  (r1.setFld Reg.pwrLo 0 3 (s.rFld Reg.pwrLo 0 3)).setFld Reg.pwrRstLast 17 3 src

/-! ### Warm reset (R470 to R474) -/

/-- The words of the port and course blocks that a warm reset keeps (R432, R472): causes and masks, counters and their
selects, the general plucks, the key registers. -/
def warmKept (a : Nat) : Bool :=
  if a < 0x80000 then
    let o := (a - 0x40000) % 0x2000
    (0x2C ≤ o && o < 0x34) || (0x40 ≤ o && o < 0x64)
  else
    let o := (a - 0x80000) % 0x40000
    (0x114000 ≤ a && a < 0x114200) || (0x4000 ≤ o && o < 0x6000) || (0x20 ≤ o && o < 0x2C) || (0x40 ≤ o && o < 0x48) ||
      (0x200 ≤ o && o < 0x280 && 8 ≤ o % 16) || (0x290 ≤ o && o < 0x298) || (0x2A0 ≤ o && o < 0x2C0) ||
      (0x500 ≤ o && o < 0x510) || (0x8000 ≤ o && o < 0x9000 && o % 0x40 == 0x2C) ||
      (0x10000 ≤ o && o < 0x30000 && 0x100 ≤ (o - 0x10000) % 0x8000 && (o - 0x10000) % 0x8000 < 0x120)

/-- The port and course registers at their cold-reset values but what a warm reset keeps (R472), MOD_PRESENT with it, and the
committed steering entries. -/
def State.warmClear (s : State) : State :=
  let mods := (List.finRange 24).filter fun (p : PortId) => s.rBit (Reg.prtStat p) 16
  let keep := fun (a : Nat) =>
    decide (a < 0x40000) || (decide (0x180000 ≤ a) && decide (a < steerHeld 0 0)) || decide (steerHeld 4 0 ≤ a) ||
      (decide (a < 0x180000) && warmKept a)
  let s1 := { s with
    regs := s.regs.filter (fun e => keep e.1), i2cRun := Vector.replicate 4 none, speedAt := Vector.replicate 4 s.nut }
  mods.foldl (fun u p => u.setBit (Reg.prtStat p) 16 true) s1

/-- A load that a warm reset ends: ABORTED where its image passes its checks, else BAD_IMAGE (R493). -/
def State.warmLoad (s : State) : State :=
  match s.load with
  | some j =>
    let s1 := s.abortLoad j.course
    if s1.load.isSome then (s1.setFld Reg.cfgStat 11 3 (imageReason j.flash)).loadEnd 2 else s1
  | none => s

/-- The first tick of a warm reset (R472 to R474): every course enters course reset, every port port reset, the harp IDLE. -/
def State.warmStart (s : State) : State :=
  let s1 := (((s.setBit Reg.pwrStat 18 true).setBit Reg.pwrRstLast 16 true).setBit Reg.cfgStat 19 true).warmLoad
  let s2 := foldFin 4 (fun c u => u.courseReset c) s1.dmaReset
  (foldFin 24 (fun p u => u.portScope p) s2).warmClear.harpWarm

/-- A write of DEV_RST (R471): refused without its key; COLD before WARM; WARM ignored during a warm reset. -/
def State.devRstWrite (s : State) (v : Word) : State :=
  if fld v 0 16 ≠ 0xA5C3 then s.setBit Reg.devCfgErr 19 true
  else if bitOf v 18 then s.coldReset 2
  else if bitOf v 19 && !s.rBit Reg.pwrStat 18 then s.warmStart
  else s

/-! ### Crossings (R466) -/

/-- Both sides of a crossing are out of reset (R466, R469). -/
def State.sidesUp (s : State) (x : Nat) : Bool :=
  if x < 48 then
    let p := x % 24
    s.powered (5 + p / 6) && !s.rBit (Reg.prtCtrl p) 18 && !(s.ports.toArray.getD p PortSt.cold).held && !s.rBit Reg.pwrStat 18
  else if x = 48 then s.harpOn && !s.rBit Reg.pwrStat 18
  else if x = 49 then s.hostUp
  else if 51 ≤ x && x < 55 then s.crsState (x - 51) != CS.reset
  else true

end Sys2Proof.Machine
end

