-- ==== Sys2Proof/Machine/Sequence.lean ====
section
/-! DEFINITION. Linkan-20: sequencing (R314, R325, R340, R343), waits and wakes (R318 to R324), the return of a stalled result
(R303), and the faults of contexts and strings with their restarts (R306, R330 to R333). -/

namespace Sys2Proof.Machine

/-- The target of BR and CALL (R343). -/
def State.target (s : State) (x : CtxId) (f : Fields) : Nat :=
  if bitOf f.imm 19 then (((s.ctx x).r f.srca.toNat).toNat + fld f.imm 0 15) % 32768 else fld f.imm 0 15

/-- NOP. -/
def execNop (x : CtxId) (f : Fields) (s : State) : Host.Outcome State Fault Refusal :=
  .next (s.issue x f 1 (f.w == 1) fun t => .go false t)

/-- BR (R343). -/
def execBr (x : CtxId) (f : Fields) (s : State) : Host.Outcome State Fault Refusal :=
  .next (s.issue x f 1 (f.w == 1) fun t => .jump (t.target x f) t)

/-- CALL (R314): PC + 1 is pushed; a ninth call is a STACK fault. -/
def execCall (x : CtxId) (f : Fields) (s : State) : Host.Outcome State Fault Refusal :=
  .next (s.issue x f 1 (f.w == 1) fun t =>
    if 8 ≤ (t.ctx x).stack.length then .fault Flt.stack
    else .jump (t.target x f) (t.onCtx x fun c => { c with stack := (c.pc + 1) :: c.stack }))

/-- RET (R314): the PC is popped; an empty stack is a STACK fault. -/
def execRet (x : CtxId) (f : Fields) (s : State) : Host.Outcome State Fault Refusal :=
  .next (s.issue x f 1 (f.w == 1) fun t =>
    match (t.ctx x).stack with
    | p :: ps => .jump p.toNat (t.onCtx x fun c => { c with stack := ps })
    | [] => .fault Flt.stack)

/-- YIELD (R325). -/
def execYield (x : CtxId) (f : Fields) (s : State) : Host.Outcome State Fault Refusal :=
  .next (s.issue x f 1 (f.w == 1) fun t => .go false (t.endItem x .idle))

/-- HALT (R325): the cause HALT. -/
def execHalt (x : CtxId) (f : Fields) (s : State) : Host.Outcome State Fault Refusal :=
  .next (s.issue x f 1 (f.w == 1) fun t =>
    .go false ((t.endItem x .halted).orReg (Reg.crsCause (courseOf x)) 0x08000))

/-- WAIT (R318, R321, R323): reserved mask bits, an empty mask without a deadline and a misplaced wake record are ILLEGAL. -/
def execWait (x : CtxId) (f : Fields) (s : State) : Host.Outcome State Fault Refusal :=
  .next (
    let mask := fld f.imm 0 14
    let legal := f.w == 1 && fld f.imm 14 6 == 0 && (mask != 0 || f.m 0) && f.dst.toNat % 8 == 0 &&
      (!f.m 0 || chordOk f.srca 4)
    s.issue x f 1 legal fun t =>
      let d : Option Nut := if f.m 0 then some (BitVec.ofNat 80 ((t.ctx x).chord f.srca.toNat 4)) else none
      .go false (t.startWait x { mask := BitVec.ofNat 14 mask, deadline := d, dst := f.dst }))

/-- EVENT_WAKE (R321, R322): a named event that arrived in time wakes the context. -/
def execEventWake (x : CtxId) (s : State) : Host.Outcome State Fault Refusal :=
  .next (
    match (s.ctx x).waiting with
    | some w =>
      if (s.ctx x).mode = .wait then
        match s.wakeBy x w with
        | some b => s.wakeWith x b
        | none => s
      else s
    | none => s)

/-- WAIT_TIMEOUT (R321, R322): the deadline's expiry tick with no named event. -/
def execWaitTimeout (x : CtxId) (s : State) : Host.Outcome State Fault Refusal :=
  .next (
    match (s.ctx x).waiting with
    | some w =>
      match w.deadline with
      | some d =>
        if (s.ctx x).mode = .wait ∧ expiryOf d ≤ s.nut.toNat ∧ s.wakeBy x w = none then s.wakeTimeout x else s
      | none => s
    | none => s)

/-- STALL_RESULT_RETURN (R303): the result has crossed back; the context is in RUN again. -/
def execStallResultReturn (x : CtxId) (s : State) : Host.Outcome State Fault Refusal :=
  .next (if (s.ctx x).mode = .stall ∧ (s.ctx x).stall = .result then s.enterRun x else s)

/-- RUNAWAY_FAULT (R330): more than CRS_RUNAWAY instructions since the dispatch or the last wake. -/
def execRunawayFault (x : CtxId) (s : State) : Host.Outcome State Fault Refusal :=
  .next (
    if s.runs x && decide ((s.reg (Reg.crsRunaway (courseOf x))).toNat < (s.ctx x).issued) then s.ctxFault x 7 else s)

/-- D1 and D2 of a WATCHDOG or STATE record (R457): the PC of the string's last issue and the contexts in RUN. -/
def State.strDetail (s : State) (st : StrId) : Word × Word :=
  (BitVec.ofNat 20 (s.lastPc.get st).toNat, BitVec.ofNat 20 (s.runMask st))

/-- WATCHDOG_EXPIRY (R331): nothing issued for STR_WDOG ticks with a context in RUN. -/
def execWatchdogExpiry (st : StrId) (s : State) : Host.Outcome State Fault Refusal :=
  .next (
    let w := s.rFld (Reg.strWdog st) 0 17
    if !s.strFenced st && s.powered (1 + (strCourse st).val) && decide (0 < s.ctxCount st .run) &&
        reached s.nut (s.quiet.get st + BitVec.ofNat 80 (w * 163840)) then
      s.strFault st 8 (s.strDetail st).1 (s.strDetail st).2
    else s)

/-- HARDWARE_FAULT_DETECT (R332, R448): a failed sequencer check (STATE), or an uncorrectable error in a register file or other
string-local state (ECC_STR). -/
def execHardwareFaultDetect (st : StrId) (state : Bool) (mem : BitVec 4) (addr : BitVec 22) (s : State) :
    Host.Outcome State Fault Refusal :=
  .next (
    if s.strFenced st || !s.powered (1 + (strCourse st).val) then s
    else if state then s.strFault st 10 (s.strDetail st).1 (s.strDetail st).2
    else s.strFault st 9 (BitVec.ofNat 20 (mem.toNat * 65536 + addr.toNat / 2 ^ 20)) (BitVec.ofNat 20 addr.toNat))

/-- A string returned to dispatch (R333): its register files and call stacks are cleared, its contexts IDLE. -/
def State.restartStr (s : State) (st : StrId) : State :=
  ((s.clearStr st).setBit (Reg.strStat st) 19 false).setFld (Reg.strStat st) 15 4 0

/-- STRING_RESTART (R306, R333): a host write of STR_CTL.RESTART. -/
def execStringRestart (st : StrId) (s : State) : Host.Outcome State Fault Refusal :=
  .next (s.hostWrite (Reg.strCtl st) fun t => t.restartStr st)

/-- A host write of STR_CTX_CMDx.RESTART (R306): HALTED to IDLE. -/
def State.restartCtx (s : State) (x : CtxId) : State :=
  if (s.ctx x).mode = .halted then s.onCtx x fun c => { c with mode := .idle } else s

/-- CONTEXT_RESTART (R306). -/
def execContextRestart (x : CtxId) (s : State) : Host.Outcome State Fault Refusal :=
  .next (s.hostWrite (Reg.strCtxCmd (strOf x) (x.val % 8)) fun t => t.restartCtx x)

end Sys2Proof.Machine
end

