-- ==== Sys2Proof/Machine/Tdc.lean ====
section
/-! DEFINITION. Calibration of the TDC lines and the temperature sensors: their commands (R69 to R83, R480). -/

namespace Sys2Proof.Machine

/-- The end of a tick for the hits of every line but L65, whose events are known at the end of a touch slot (R69, R128). -/
def State.settleHits (s : State) : State :=
  if s.lines.toList.all fun x => x.pend.isEmpty then s
  else { s with lines := Vector.ofFn fun (l : LineId) => if l = 65 then s.lines.get l else (s.lines.get l).settle s.nut }

/-- The other line of a pick (R64). -/
def pickPartner (l : LineId) : LineId := ⟨l.val - l.val % 2 + (1 - l.val % 2), by omega⟩

/-- A pick's line gets no hit while its partner carries one, and none within two ticks after a real event (R70). -/
def State.hitBarred (s : State) (l : LineId) (window : Nut) : Bool :=
  decide (48 ≤ l.val ∧ l.val < 64) &&
    ((s.lines.get (pickPartner l)).hitAt == some window || (s.lines.get l).freshEvent window ||
      (s.lines.get (pickPartner l)).freshEvent window)

/-- CALIBRATION_HIT (R69 to R71): a hit occupies its line on its window's tick and waits for its verdict, while CAL_EN is 1 and the
line's domain is on. -/
def execCalibrationHit (l : LineId) (code : Code) (window : Nut) (s : State) : Host.Outcome State Fault Refusal :=
  .next (
    if s.rBit Reg.nutTdcCtrl 19 && s.powered (lineDomain l) && !s.hitBarred l window then
      let x := s.lines.get l
      { s with lines := vset s.lines l { x with pend := x.pend ++ [(window, code.val)], hitAt := some window } }
    else s)

/-- TABLE_COMPLETE (R71, R73, R74, R79): at the 2²⁰th kept hit the table is checked; a passing one becomes the shadow
table, a failing one counts in FAILS, and the third in a row sets DEGRADED, a fault. -/
def execTableComplete (l : LineId) (s : State) : Host.Outcome State Fault Refusal :=
  .next (
    let x := s.lines.get l
    if x.kept = 1048576 then
      let s0 := { s with lines := vset s.lines l { x with hist := [], kept := 0 } }
      if histPasses x.hist then
        let b : BinTable :=
          { body := .hist x.hist, gen := s.nextGen l, span := histSpan x.hist,
            qual := BitVec.ofNat 20 (histMiss x.hist * 4096 + histWide x.hist * 16),
            maxbin := (roundHaz ((histMax x.hist : Int) * 163840) 1048576).toNat, temp := s.tempNow l, ins := s.insNow l,
            swap := 0 }
        let s1 := s0.newShadow l b
        let s2 := { s1 with lines := vset s1.lines l { s1.lines.get l with passS := histSpan x.hist } }
        s2.setBit (Reg.nutTdcLs l) LS.ready true
      else
        let n := min 15 (s0.rFld (Reg.nutTdcLs l) 9 4 + 1)
        let s1 := (s0.setBit (Reg.nutTdcLs l) LS.calFail true).setFld (Reg.nutTdcLs l) 9 4 n
        if 3 ≤ n && !s1.rBit (Reg.nutTdcLs l) LS.degraded then
          (s1.setBit (Reg.nutTdcLs l) LS.degraded true).errRecord 14 1 10 l.val (BitVec.ofNat 20 x.passS) (BitVec.ofNat 20 n)
        else s1
    else s)

/-- DRIFT_EVAL (R80): after 65,536 kept hits the median code is compared with the active table's. -/
def execDriftEval (l : LineId) (s : State) : Host.Outcome State Fault Refusal :=
  .next (
    let x := s.lines.get l
    if x.batchN = 65536 then
      let m := batchMedian x.batch
      let h := (s.active l).halfCode
      let d := decide (2 ≤ m - h ∨ 2 ≤ h - m)
      let was := s.rBit (Reg.nutTdcLs l) LS.drift
      let s1 := { s with lines := vset s.lines l { x with batch := [], batchN := 0 } }
      let s2 := s1.setBit (Reg.nutTdcLs l) LS.drift d
      if d && !was then s2.orReg (Reg.irqGrp 12) 0x4000 else s2
    else s)

/-- The active table's age exceeds STALE_MS (R78). -/
def State.tableOld (s : State) (l : LineId) : Bool :=
  s.nutRun && decide ((msNut (s.rFld Reg.nutTdcCtrl 0 10)).toNat < (s.nut - (s.active l).swap).toNat)

/-- STALE_RISE (R78): STALE rises and raises the TDC cause. -/
def execStaleRise (l : LineId) (s : State) : Host.Outcome State Fault Refusal :=
  .next (
    if s.tableOld l && !s.rBit (Reg.nutTdcLs l) LS.stale then
      (s.setBit (Reg.nutTdcLs l) LS.stale true).orReg (Reg.irqGrp 12) 0x8000
    else s)

/-- A write of NUT_TDC_CTRL (R83): CAL_EN = 0 discards the tables in progress; a line younger than the new STALE_MS is
not stale (R78). -/
def State.tdcCtrl (s : State) (v : Word) : State :=
  let s1 := s.setReg Reg.nutTdcCtrl (v &&& 0x803FF)
  let s2 := if bitOf v 19 then s1
    else { s1 with lines := s1.lines.map Line.dropTable }
  foldFin 66 (fun l u => if u.rBit (Reg.nutTdcLs l) LS.stale && !u.tableOld l then u.setBit (Reg.nutTdcLs l) LS.stale false
    else u) s2

/-- TDC_CTRL_WRITE (R83). -/
def execTdcCtrlWrite (v : Word) (s : State) : Host.Outcome State Fault Refusal :=
  .next (s.hostWrite Reg.nutTdcCtrl fun s => s.tdcCtrl v)

/-- TEMP_SENSOR_UPDATE (R79, R480): a sensor's conversion; THERM_WARN and THERM_CRIT set when it rises to their limits. -/
def execTempSensorUpdate (n : Fin 4) (theta : BitVec 16) (s : State) : Host.Outcome State Fault Refusal :=
  .next (
    let old := s.reg (Reg.pwrTemp n)
    let rises := fun (lim : Nat) =>
      decide ((lim : Int) * 128 ≤ theta.toInt) && (!bitOf old 19 || decide (sfld old 0 16 < (lim : Int) * 128))
    let th := s.reg Reg.pwrTherm
    let s1 := s.setReg (Reg.pwrTemp n) (BitVec.ofNat 20 (2 ^ 19 + theta.toNat))
    let s2 := if rises (fld th 8 8) then s1.orReg Reg.pwrCause 0x20000 else s1
    if rises (fld th 0 8) then s2.orReg Reg.pwrCause 0x10000 else s2)

end Sys2Proof.Machine
end

