-- ==== Sys2Proof/Machine/Table.lean ====
section
/-! DEFINITION. Linkan-20: the client table (R360 to R364) and the compatibility rule (R337). -/

namespace Sys2Proof.Machine

/-! ### The compatibility rule -/

/-- The highest LEVEL among the courses in some states; none where no course is in one. -/
def State.topLevel (s : State) (ok : Nat → Bool) : Option Nat :=
  (List.range 4).foldl (fun m c =>
    if ok (s.crsState c) then some (max (m.getD 0) (s.rFld (Reg.crsCompat c) 0 8)) else m) none

/-- H (R337): among RUN and DRAINING; else among DRAINED; else 0. -/
def State.highLevel (s : State) : Nat :=
  match s.topLevel fun m => m == CS.run || m == CS.draining with
  | some h => h
  | none => (s.topLevel fun m => m == CS.drained).getD 0

/-- A client-table write of a course is refused: its LEVEL is below H − 1 (R337). -/
def State.tooOld (s : State) (c : CourseId) : Bool := decide (s.rFld (Reg.crsCompat c) 0 8 + 1 < s.highLevel)

/-- A refused client-table write counted (R337). -/
def State.compatReject (s : State) (c : CourseId) : State := (s.addSat (Reg.crsCompatRej c) 1).orReg (Reg.crsCause c) 0x02000

/-! ### The table's words -/

/-- A word of the client table; one whose contents are lost reads as a free value (R472). -/
def State.clientWord (s : State) (a : Nat) : Word × State :=
  match s.client.read? a with
  | some w => (w, s)
  | none => s.free 20

/-- Consecutive words of the client table. -/
def State.clientWords (s : State) (a : Nat) : Nat → List Word × State
  | 0 => ([], s)
  | k + 1 =>
    let (w, s1) := s.clientWord a
    let (ws, s2) := s1.clientWords (a + 1) k
    (w :: ws, s2)

/-- Words stored in the client table. A store gives a damaged word a correct code again. -/
def State.storeClient (s : State) (a : Nat) (ws : List Word) : State :=
  { s with
    client := s.client.writes a ws,
    bad := s.bad.filter fun e => !(e.1 == .clientTable && a ≤ e.2.2 && decide (e.2.2 < a + ws.length)) }

/-- A damaged word of a range of the client table. -/
def State.badClient (s : State) (a n : Nat) : Option Nat :=
  (s.bad.find? fun e => e.1 == .clientTable && a ≤ e.2.2 && decide (e.2.2 < a + n)).map fun e => e.2.2

/-- The time of an entry's TOUCH: whole seconds since cold reset, modulo 2¹⁶ (R361). -/
def State.touchNow (s : State) : Nat := s.nut.toNat / 65536000000000 % 65536

/-- A table's header (R360): VALID, KW, BASE, B and AGE_LIMIT. -/
structure TabHead where
  valid : Bool
  kw    : Nat
  base  : Nat
  b     : Nat
  age   : Nat
  deriving DecidableEq, Repr

/-- A header from its first four words (R360). -/
def tabHead (ws : List Word) : TabHead :=
  let w := fun i => ws.getD i 0
  { valid := bitOf (w 0) 19, kw := fld (w 0) 16 3, base := fld (w 1) 0 16 * 64, b := fld (w 2) 0 5, age := fld (w 3) 0 15 }

/-- BADTAB (R360). -/
def TabHead.bad (h : TabHead) : Bool :=
  !h.valid || h.kw == 0 || decide (5 < h.kw) || decide (16 < h.b) || decide (h.base < 256) ||
    decide (2 ^ 22 < h.base + 64 * 2 ^ h.b)

/-- The bytes of key words for the hash (R361). -/
def keyHashBytes (ws : List Word) : List Byte :=
  ws.flatMap fun w => [BitVec.ofNat 8 w.toNat, BitVec.ofNat 8 (w.toNat / 256), BitVec.ofNat 8 (w.toNat / 65536)]

/-- The bucket of a key (R361). -/
def TabHead.bucket (h : TabHead) (key : List Word) : Nat :=
  (crc32c 0xFFFFFFFF (keyHashBytes key)).toNat % 2 ^ h.b

/-- The 16 words of a way of a bucket. -/
def wayWords (bucket : List Word) (i : Nat) : List Word := (bucket.drop (16 * i)).take 16

/-- A way's USED and TOUCH (R361). -/
def wayUsed (bucket : List Word) (i : Nat) : Bool := bitOf ((wayWords bucket i).getD 0 0) 19
def wayTouch (bucket : List Word) (i : Nat) : Nat := fld ((wayWords bucket i).getD 0 0) 0 16

/-- The key of an entry: five words, those above KW 0 (R361). -/
def padKey (key : List Word) : List Word := (key ++ List.replicate 5 0).take 5

/-- The way of a bucket that holds a key (R363). -/
def wayOf (bucket key : List Word) : Option Nat :=
  (List.range 4).find? fun i => wayUsed bucket i && ((wayWords bucket i).drop 1).take 5 == padKey key

/-- What a table instruction gives (R362): STATUS, way, age, entries removed, data, and the words it writes. -/
structure TabResult where
  status  : Nat
  way     : Nat
  age     : Nat
  removed : Nat
  data    : List Word
  writes  : List (Nat × List Word)
  deriving DecidableEq, Repr

/-- A table instruction (R363): its kind (0 TLKP, 1 TINS, 2 TUPD, 3 TDEL, 4 TAGE), MODE, key or bucket word, and B. -/
structure TabOp where
  kind : Nat
  mode : BitVec 4
  key  : List Word
  b    : List Word
  deriving DecidableEq, Repr

/-- The offset of the selected half within an entry (R362). -/
def TabOp.half (o : TabOp) : Nat := if o.mode.getLsbD 0 then 11 else 6

/-- A word 0 with USED and a TOUCH. -/
def usedWord (t : Nat) : Word := BitVec.ofNat 20 (2 ^ 19 + t % 65536)

/-- A new entry (R363): the selected half is B, the other 0. -/
def TabOp.newEntry (o : TabOp) (t : Nat) : List Word :=
  usedWord t :: padKey o.key ++
    (if o.mode.getLsbD 0 then List.replicate 5 0 ++ o.b else o.b ++ List.replicate 5 0)

/-- The age of a way (R361). -/
def ageOf (bucket : List Word) (i now : Nat) : Nat := (now + 65536 - wayTouch bucket i) % 65536

/-- An insertion (R363): the lowest unused way, or FULL. -/
def TabOp.insert (o : TabOp) (bucket : List Word) (at_ now : Nat) : Option TabResult :=
  match (List.range 4).find? fun i => !wayUsed bucket i with
  | some i => some { status := 2, way := i, age := 0, removed := 0, data := o.b, writes := [(at_ + 16 * i, o.newEntry now)] }
  | none => none

/-- What an instruction does to a key that its bucket holds in way i (R363). -/
def TabOp.onHit (o : TabOp) (bucket : List Word) (at_ now i : Nat) (touch : Bool) : TabResult :=
  let e := wayWords bucket i
  let old := (e.drop o.half).take 5
  let w0 := e.getD 0 0
  let head := (at_ + 16 * i, [putFld w0 0 16 now])
  let add := List.zipWith (fun (a b : Word) => BitVec.ofNat 20 (min 0xFFFFF (a.toNat + b.toNat))) old o.b
  let (data, writes) : List Word × List (Nat × List Word) :=
    match o.kind with
    | 0 => (old, if touch then [head] else [])
    | 1 => if o.mode.getLsbD 2 then (o.b, [head, (at_ + 16 * i + o.half, o.b)]) else (old, [])
    | 2 =>
      let new := if o.mode.getLsbD 1 then add else o.b
      (new, [head, (at_ + 16 * i + o.half, new)])
    | _ => (old, [(at_ + 16 * i, [putBit w0 19 false])])
  { status := 0, way := i, age := ageOf bucket i now, removed := 0, data := data, writes := writes }

/-- A result without an entry: what R362 does not give of it is `open_` (DESIGN CHOICE, notes/assumptions/39.md). -/
def noEntry (status : Nat) (open_ : BitVec 18) : TabResult :=
  { status := status, way := open_.toNat % 4, age := open_.toNat / 4, removed := 0, data := List.replicate 5 0, writes := [] }

/-- TLKP, TINS, TUPD and TDEL on their bucket (R363). -/
def TabOp.run (o : TabOp) (bucket : List Word) (at_ now : Nat) (touch : Bool) (open_ : BitVec 18) : TabResult :=
  match wayOf bucket o.key with
  | some i => o.onHit bucket at_ now i touch
  | none =>
    if o.kind = 1 || (o.kind = 2 && o.mode.getLsbD 2) then (o.insert bucket at_ now).getD (noEntry 3 open_)
    else noEntry 1 open_

/-- TAGE on a bucket (R363; AGE_LIMIT 0 disables ageing, R360). R362 gives no status of one that was applied: it is free among HIT,
MISS, INSERTED and FULL, and so are the way, the age and, with HIT or INSERTED, the data (DESIGN CHOICE, notes/assumptions/39.md). -/
def tabAge (h : TabHead) (bucket : List Word) (at_ now : Nat) (open_ : BitVec 122) : TabResult :=
  let old := (List.range 4).filter fun i => h.age != 0 && wayUsed bucket i && decide (h.age < ageOf bucket i now)
  let n := open_.toNat
  let hit : Bool := n % 2 == 0
  { status := n % 4, way := n / 16 % 4, age := n / 64 % 65536, removed := old.length,
    data := if hit then toWords 5 (n / 2 ^ 22) else List.replicate 5 0,
    writes := old.map fun i => (at_ + 16 * i, [putBit ((wayWords bucket i).getD 0 0) 19 false]) }

/-- A table instruction completes (R337, R362, R423, R427): its registers, Z, and the counts. -/
def State.tabDone (s : State) (x : CtxId) (f : Fields) (r : TabResult) : State :=
  let st := strOf x
  let s1 := (r.writes.foldl (fun u e => u.storeClient e.1 e.2) s).count (Cnt.dev 1) 1
  let s2 := s1.strEvent st 12 1
  let s3 := if r.status = 4 || r.status = 5 then s2.strEvent st 13 1 else s2
  let s4 := if r.status = 4 then (s3.count (Cnt.dev 2) 1).compatReject (courseOf x) else s3
  (s4.onCtx x fun c => c.wr f.dst.toNat ([BitVec.ofNat 20 (r.status * 65536 + r.way), BitVec.ofNat 20 r.age,
    BitVec.ofNat 20 r.removed] ++ r.data)).setFlags x f fun g => { g with z := r.status == 0 || r.status == 2 }

/-- The state after the result of a table instruction, given its header (R337, R360 to R363). -/
def State.tabApply (s : State) (x : CtxId) (f : Fields) (o : TabOp) (h : TabHead) : Res :=
  let old := s.tooOld (courseOf x)
  let now := s.touchNow
  let k := if o.kind = 4 then (o.key.getD 0 0).toNat % 65536 % 2 ^ h.b else h.bucket o.key
  let at_ := h.base + 64 * k
  if h.bad || (o.kind != 4 && f.w != h.kw) then
    let (v, s1) := s.free 18
    .go true (s1.tabDone x f (noEntry 5 v))
  else if old && o.kind != 0 then
    let (v, s1) := s.free 18
    .go true (s1.tabDone x f (noEntry 4 v))
  else
    match s.badClient at_ 64 with
    | some b => .ecc 3 b
    | none =>
      let (bucket, s1) := s.clientWords at_ 64
      if o.kind = 4 then
        let (v, s2) := s1.free 122
        .go true (s2.tabDone x f (tabAge h bucket at_ now v))
      else
        let touch := o.kind == 0 && o.mode.getLsbD 1
        let (v, s2) := s1.free 18
        let r := o.run bucket at_ now (touch && !old) v
        .go true ((if touch && old && r.status == 0 then s2.compatReject (courseOf x) else s2).tabDone x f r)

/-- A table instruction (R341, R360 to R364). -/
def State.tabOp (s : State) (x : CtxId) (f : Fields) (kind : Nat) : State :=
  let hasB : Bool := kind == 1 || kind == 2
  let legal := (if kind = 4 then f.w == 1 else f.widOk) && chordOk f.srca f.w && f.dst.toNat % 8 == 0 &&
    ((f.sel == 0 && (!hasB || chordOk f.srcb 5)) || f.sel == 3)
  s.issue x f 1 legal fun t =>
    let b := if hasB then t.srcB x f 5 else .val 0 t
    b.bind fun bv u =>
      let n := fld f.imm 0 4
      match u.badClient (16 * n) 4 with
      | some a => .ecc 3 a
      | none =>
        let (ws, u1) := u.clientWords (16 * n) 4
        let o : TabOp := { kind := kind, mode := f.mode, key := (u1.ctx x).rd f.srca.toNat f.w, b := toWords 5 bv }
        u1.tabApply x f o (tabHead ws)

/-- TLKP (R363). -/
def execTlkp (x : CtxId) (f : Fields) (s : State) : Host.Outcome State Fault Refusal := .next (s.tabOp x f 0)
/-- TINS (R363). -/
def execTins (x : CtxId) (f : Fields) (s : State) : Host.Outcome State Fault Refusal := .next (s.tabOp x f 1)
/-- TUPD (R363). -/
def execTupd (x : CtxId) (f : Fields) (s : State) : Host.Outcome State Fault Refusal := .next (s.tabOp x f 2)
/-- TDEL (R363). -/
def execTdel (x : CtxId) (f : Fields) (s : State) : Host.Outcome State Fault Refusal := .next (s.tabOp x f 3)
/-- TAGE (R363). -/
def execTage (x : CtxId) (f : Fields) (s : State) : Host.Outcome State Fault Refusal := .next (s.tabOp x f 4)

end Sys2Proof.Machine
end

