-- ==== Sys2Proof/Machine/View.lean ====
section
/-! DEFINITION. What the host sees: the interrupt tree (R440 to R447), IRQ_N, and the value a read of a register word returns
where hardware forms it from other state. -/

namespace Sys2Proof.Machine

/-- Bits as a word: those of `l` that hold. -/
def bitsWord (l : List (Nat × Bool)) : Word := l.foldl (fun w e => if e.2 then putBit w e.1 true else w) 0

/-- A cause register has a bit set that its mask enables. -/
def State.causes (s : State) (cause mask : Nat) : Bool := s.reg cause &&& s.reg mask != 0

/-- Some bit of a field is set. -/
def State.anyOf (s : State) (a lo len : Nat) : Bool := s.rFld a lo len != 0

/-! ### Combined status -/

/-- IRQ_EN of a general pluck: as its last arm took it, since a later write of PLK_CTRL waits for the next arm (R134; DEDUCED,
notes/assumptions/178.md). -/
def State.pluckIrqEn (s : State) (g : PluckId) : Bool := bitOf (s.plucks.get g).cfg.ctrl 6

/-- A general pluck holds a flag of R147: FIRED with IRQ_EN, LATE, MISSED, RANGE, ERR or OVERRUN. -/
def State.pluckFlag (s : State) (g : PluckId) : Bool :=
  (s.rBit (Reg.plkStat g) 15 && s.pluckIrqEn g) || s.anyOf (Reg.plkStat g) 10 5

/-- IRQ_PLKMAPc as 64 bits (R445). -/
def State.pluckMap (s : State) (c : CourseId) : List Bool :=
  (List.range 64).map fun k => s.pluckFlag (Fin.ofNat 256 (c.val * 64 + k))

/-- HARP_CAUSE with CH, the OR of HARP_CH_CAUSE (R245). -/
def State.harpCauses (s : State) : Word :=
  putBit (s.reg Reg.harpCause) 14 ((List.range 5).any fun w => s.reg (Reg.harpChCause w) != 0)

/-- BRG_FOUT_CTRL.SQUELCHED: FOUTf is held inactive (R204, R206). -/
def State.foutSquelched (s : State) (f : FoutId) : Bool :=
  let w := s.reg (Reg.brgFoutCtrl f)
  (s.foutClk.get f).gated || !bitOf w 19 || !bitOf w 15

/-! ### The tree (R440, R444) -/

/-- A port group's bits (R444, GRP4 to GRP7). -/
def State.portGroup (s : State) (n : Nat) : Word :=
  bitsWord ((List.range 6).flatMap fun k =>
    let p := 6 * n + k
    [(6 + k, s.anyOf (Reg.fretStat p) 13 5), (k, s.causes (Reg.prtCause p) (Reg.prtCauseMask p))])

/-- IRQ_GRPn (R440, R441, R444): rh bits formed from their sources, rc1 bits as latched. -/
def State.irqGroup (s : State) (n : Nat) : Word :=
  let kept := s.reg (Reg.irqGrp n)
  if n < 4 then bitsWord [(19, s.causes (Reg.crsCause n) (Reg.crsCauseMask n))]
  else if n < 8 then s.portGroup (n - 4)
  else
    match n with
    | 8 => bitsWord ([(19, s.causes Reg.brgCause Reg.brgCauseMask), (18, s.causes Reg.brgLcause Reg.brgLcauseMask),
        (17, s.rBit Reg.brgSelCtrl 16)] ++ (List.range 8).map fun u => (u, s.anyOf (Reg.brgFmuStat u) 16 2))
    | 9 => bitsWord [(19, s.harpCauses &&& s.reg Reg.harpCauseMask != 0), (18, s.causes Reg.harpMcause Reg.harpMcauseMask),
        (17, s.rBit Reg.harpStat 16)]
    | 10 => kept ||| bitsWord ((List.range 8).map fun p =>
        (p, s.rBit (Reg.pickStat p) 18 || s.anyOf (Reg.pickStat p) 15 2))
    | 11 => bitsWord (((List.finRange 8).map fun (o : OutId) => (4 + o.val, s.anyOf (Reg.plkEdgeStat o) 14 2 ||
          s.anyOf (Reg.plkEdgeStat o) 11 2)) ++
        (List.finRange 4).map fun (c : CourseId) => (c.val, (s.pluckMap c).any id))
    | 12 => kept ||| bitsWord [(19, s.reg Reg.nutChkCrs != 0), (18, s.reg Reg.nutChkFreta != 0), (17, s.reg Reg.nutChkFretb != 0),
        (16, (List.range 66).any fun l => s.rBit (Reg.nutTdcLs l) 14),
        (13, ((List.range 16).any fun t => s.rBit (Reg.tunStatus t) 15) || s.anyOf (Reg.tunLeapCtrl 0) 16 2)]
    | 13 => bitsWord [(19, s.causes Reg.dmpCause Reg.dmpCauseMask), (18, s.rBit Reg.dmpStat 19)]
    | 14 => bitsWord [(19, s.causes Reg.devHostCause Reg.devHostCauseMask)]
    | 15 => bitsWord [(19, s.causes Reg.pnlCause Reg.pnlCauseMask)]
    | 16 => bitsWord [(19, s.causes Reg.pwrCause Reg.pwrCauseMask)]
    | 17 => bitsWord [(19, s.causes Reg.cfgCause Reg.cfgCauseMask)]
    | 18 => (s.reg Reg.irqFault &&& s.reg Reg.irqFaultMask) >>> 11
    | 19 => bitsWord ((List.range 4).map fun c => (c, s.reg (Reg.irqDbell c) != 0))
    | _ => 0

/-- IRQ_SUMMARY (R440). -/
def State.irqSummary (s : State) : Word :=
  bitsWord ((List.range 20).map fun n => (n, s.irqGroup n &&& s.reg (Reg.irqGrpMask n) != 0))

/-- The device drives IRQ_N low (R440, R478). -/
def State.irqLow (s : State) : Bool :=
  s.powered 11 &&
    (s.rBit Reg.irqCtrl 18 || (s.rBit Reg.irqCtrl 19 && s.irqSummary &&& s.reg Reg.irqSummaryMask != 0))

/-! ### Register words (R13) -/

/-- The remaining time of a slot's running timer in units of 10 ms, rounded up (R183). -/
def State.rsTimerLeft (s : State) (r : SlotId) : Nat :=
  let x := s.slots.get r
  let left := fun (t d : Nut) => ((t + d - s.nut).toNat + 655359999999) / 655360000000
  match x.hold with
  | some t => left t (msNut (s.rFld Reg.brgHoldoff 0 14))
  | none =>
    match x.timer, s.rsState r with
    | some t, 2 => left t (secNut (s.rFld Reg.brgQualTime 0 10))
    | some t, 3 => left t (secNut (s.rFld Reg.brgWtr 0 12))
    | _, _ => 0

/-- A context's STATE code (R339). -/
def CtxMode.code : CtxMode → Nat
  | .idle => 0
  | .run => 1
  | .stall => 2
  | .wait => 3
  | .halted => 4

/-- Words of the low blocks (R41, R83, R458, R497, R520). -/
def State.readLow (s : State) (a : Nat) : Word :=
  let w := s.reg a
  if Reg.devDie ≤ a && a < Reg.devDie + 16 then wordOf Config.dieId.toNat ((a - Reg.devDie) / 4)
  else if a = Reg.irqSummary then s.irqSummary
  else if a = Reg.irqCtrl then putBit w 17 s.irqLow
  else if a = Reg.nutTdcStat then
    let any := fun b => (List.range 66).any fun l => s.rBit (Reg.nutTdcLs l) b
    putBit (putBit (putBit w 19 (any 13)) 18 (any 16)) 17 (any 15)
  else if 0x1000 ≤ a && a < 0x10A0 && a % 8 == 0 then s.irqGroup ((a - 0x1000) / 8)
  else if 0x1100 ≤ a && a < 0x1140 then
    wordOf (ofBits (s.pluckMap (Fin.ofNat 4 ((a - 0x1100) / 16)))) ((a - 0x1100) % 16 / 4)
  else if a = Reg.pnlQlevel then BitVec.ofNat 20 s.panel.queue.length
  else w

/-- Words of the tunings, plucks, picks, bridge and harp (R55, R58, R129, R156, R182 to R184, R215, R245). -/
def State.readTime (s : State) (a : Nat) : Word :=
  let w := s.reg a
  if a < 0x5000 then
    let t : TunId := Fin.ofNat 16 ((a - 0x4000) / 0x100)
    if a = Reg.tunStatus t then putBit w 19 (s.tunUnset t) else w
  else if a < 0x6000 then
    let o : OutId := Fin.ofNat 8 ((a - 0x5100) / 0x80)
    if a = Reg.plkEdgeStat o then putBit w 16 (s.padSquelched o) else w
  else if a < 0x8000 then
    let p : PickId := Fin.ofNat 8 ((a - 0x6000) / 0x200)
    if a = Reg.pickStat p then
      putFld (putBit w 17 (s.picks.get p).gate.isSome) 0 12 (s.picks.get p).queue.length
    else w
  else if 0x8300 ≤ a && a < 0x8380 then
    let f : FoutId := Fin.ofNat 4 ((a - 0x8300) / 0x20)
    if a = Reg.brgFoutCtrl f then putBit w 14 (s.foutSquelched f) else w
  else if 0x8400 ≤ a && a < 0x8C00 then
    let r : SlotId := Fin.ofNat 16 ((a - 0x8400) / 0x80)
    if a = Reg.brgRsTimer r then BitVec.ofNat 20 (s.rsTimerLeft r) else w
  else if 0x8C00 ≤ a && a < 0x9400 then
    let u : FmuId := Fin.ofNat 8 ((a - 0x8C00) / 0x100)
    if a = Reg.brgFmuStat u then putBit w 18 (s.fmus.get u).gate.isSome else w
  else if a = Reg.harpStat then
    putFld (putBit w 17 (s.harp.mainOn || !s.harp.small.isEmpty)) 0 7
      ((List.finRange 96).filter fun (h : ChanId) => s.chState h != 0).length
  else if a = Reg.harpCause then s.harpCauses
  else if a = Reg.harpSqStat then
    BitVec.ofNat 20 (s.harp.run.isSome.toNat * 2 ^ 19 + s.harp.queue.length * 2 ^ 14 +
      (match s.harp.run with | some r => r.done % 16384 | none => 0))
  else w

/-- Words of the ports, courses and strings (R107, R298, R337 to R339). -/
def State.readCourse (s : State) (a : Nat) : Word :=
  let w := s.reg a
  if a < 0x80000 then
    let p : PortId := Fin.ofNat 24 ((a - 0x40000) / 0x2000)
    if a = Reg.fretDrx p then Config.dRx p (s.modeRow p).idx
    else if a = Reg.fretDtx p then Config.dTx p (s.modeRow p).idx
    else w
  else if 0x114000 ≤ a && a < 0x114100 then 0
  else if Reg.keyOcc 0 ≤ a && a < Reg.keyOcc 13 then
    let k := (a - Reg.keyOcc 0) / 4 * 20
    bitsWord ((List.range 20).map fun i => (i, (Sparse.find s.keys (k + i)).isSome))
  else
    let c : CourseId := Fin.ofNat 4 ((a - 0x80000) / 0x40000)
    let o := (a - 0x80000) % 0x40000
    if o = 4 then putFld w 12 8 s.highLevel
    else if o = 0x288 then BitVec.ofNat 20 (s.freeSlots c).length
    else if 0x200 ≤ o && o < 0x280 && o % 16 == 4 then
      BitVec.ofNat 20 ((s.course c).classes.get (Fin.ofNat 8 ((o - 0x200) / 16))).length
    else if 0x10000 ≤ o && o < 0x30000 then
      let st : StrId := Fin.ofNat 16 (c.val * 4 + (o - 0x10000) / 0x8000)
      let r := (o - 0x10000) % 0x8000
      if r = 4 then putFld w 0 8 (ofBits ((strCtxs st).map fun x => (s.ctx x).mode == .idle))
      else if 0x40 ≤ r && r < 0x60 then
        let x := s.ctx (Fin.ofNat 128 (st.val * 8 + (r - 0x40) / 4))
        BitVec.ofNat 20 (x.mode.code * 2 ^ 17 + x.sys.toNat * 2 ^ 16 + x.pc.toNat)
      else w
    else w

/-- The register word at an address as a host read returns it (R13, R15, R505). -/
def State.readWord (s : State) (a : Nat) : Word :=
  if a < 0x4000 then s.readLow a
  else if a < 0x40000 then s.readTime a
  else if a < 0x180000 then s.readCourse a
  else s.reg a

/-- The value of a multi-word register as a read of word 0 captures it (R506). -/
def State.readWords (s : State) (a : Nat) : Nat → Nat
  | 0 => 0
  | k + 1 => (s.readWord a).toNat + 2 ^ 20 * s.readWords (a + 4) k

/-! ### Host reads (R474, R505, R506, R509 to R511) -/

/-- PICK_QPOP0 to 4 of a pick that drains elsewhere (R115). -/
def State.qpopShut (s : State) (a : Nat) : Bool :=
  let p := (a - 0x6000) / 0x200
  decide (0x6000 ≤ a ∧ a < 0x7000) && decide (Reg.pickQpop p ≤ a ∧ a < Reg.pickQpop p + 20) &&
    s.rFld (Reg.pickDrain p) 18 2 != 0

/-- Bits [19:0] of what a host read of a BAR0 slot returns (R115, R474, R505, R506, R509): a word of a multi-word register comes from its
read shadow, which a read of word 0 latches first (MULTIWORD_LATCH). -/
def State.hostRead (s : State) (addr : Nat) : Word :=
  let a := s.hostAddr addr
  if s.rBit Reg.pwrStat 18 && warmShut a then 0xFFFFF
  else if s.qpopShut a then 0
  else
    match regAt a with
    | some (r, _) => if 2 ≤ r.words then (Sparse.find s.rdShadow a).getD 0 else s.readWord a
    | none => 0

/-- What a host read of a window returns: a word, a poisoned completion (R511), or a word that no rule states (a memory cell never written
or lost with its supply). -/
inductive HostWord where
  | word (v : BitVec 32)
  | poisoned
  | unstated
  deriving DecidableEq, Repr

/-- A 20-bit word of a memory as a word window shows it (R510, R511). -/
def State.cellWord (s : State) (k : MemKind) (unit a : Nat) (w : Option Word) : HostWord :=
  if s.bad.contains (k, unit, a) then .poisoned
  else
    match w with
    | some v => .word (v.setWidth 32)
    | none => .unstated

/-- A word of harp memory (R249): the reserved words read 0. -/
def State.harpWord (s : State) (w : Nat) : Option Word :=
  if (512 ≤ w && w < 4096) || 135168 ≤ w then some 0 else s.harp.mem.read? w

/-- Four bytes of a packet buffer, the lowest address in bits [7:0] (R510, R511). -/
def State.bufWord (s : State) (c : CourseId) (o : Nat) : HostWord :=
  if (List.range 4).any fun i => s.bad.contains (.packetBuffer, c.val, o + i) then .poisoned
  else
    match (List.range 4).mapM fun i => (s.course c).buf.read? (o + i) with
    | some bs => .word (BitVec.ofNat 32 (ofBeBytes bs.reverse))
    | none => .unstated

/-- A word of a TDC bin table (R82): table k of line L lies at L × 0x1000 + k × 0x800. -/
def State.tdcWord (s : State) (o : Nat) : HostWord :=
  if h : o / 0x1000 < 66 then
    let l : LineId := ⟨o / 0x1000, h⟩
    let k := decide (0x800 ≤ o % 0x1000)
    let b := if k then (s.lines.get l).t1 else (s.lines.get l).t0
    s.cellWord .tdcTable l.val (tdcAddr k (o % 0x800 / 4)) (some (b.wordAt l (o % 0x800 / 4 * 4)))
  else .word 0

/-- A window of a power domain: all ones while it is off (R510). -/
def State.windowOf (s : State) (d : Nat) (w : HostWord) : HostWord := if s.powered d then w else .word 0xFFFFFFFF

/-- What a host read of a DW of BAR2 returns (R35, R82, R249, R474, R510, R511). -/
def State.windowRead (s : State) (a : Nat) : HostWord :=
  if s.rBit Reg.pwrStat 18 && decide (a < 0x1000000) then .word 0xFFFFF
  else if a < 0x400000 then
    let c : CourseId := Fin.ofNat 4 (a / 0x100000)
    let w := a % 0x100000 / 4
    s.windowOf (1 + c.val) (if 98304 ≤ w then .word 0 else s.cellWord .programTable c.val w ((s.course c).prog.read? w))
  else if a < 0xC00000 then
    let c : CourseId := Fin.ofNat 4 ((a - 0x400000) / 0x200000)
    let w := (a - 0x400000) % 0x200000 / 4
    s.windowOf (1 + c.val) (s.cellWord .dataSram c.val w ((s.course c).data.read? w))
  else if a < 0x1000000 then
    let c : CourseId := Fin.ofNat 4 ((a - 0xC00000) / 0x100000)
    s.windowOf (1 + c.val) (s.bufWord c (a % 0x100000 / 4 * 4))
  else if a < 0x1400000 then .word 0
  else if a < 0x2400000 then s.cellWord .clientTable 0 ((a - 0x1400000) / 4) (s.client.read? ((a - 0x1400000) / 4))
  else if a < 0x2600000 then
    s.windowOf 10 (s.cellWord .harpMemory 0 ((a - 0x2400000) / 4) (s.harpWord ((a - 0x2400000) / 4)))
  else if a < 0x2642000 then s.tdcWord (a - 0x2600000)
  else .word 0

/-- What a program's read of a word of harp memory meets (R35, R249, R326, R454): PRIV for a user context, ECC_DATA on a damaged word,
else the word where one is stated. No instruction of the set addresses this memory (notes/assumptions/140.md). -/
def State.harpRead (s : State) (x : CtxId) (w : Nat) : Except Nat (Option Word) :=
  if !(s.ctx x).sys then .error Flt.priv
  else if s.bad.contains (.harpMemory, 0, w) then .error 6
  else .ok (s.harpWord w)

end Sys2Proof.Machine
end

