-- ==== Sys2Proof/Machine/RegFile.lean ====
section
/-! DEFINITION. A write of one BAR0 slot, by the host or by the configuration loader (R13 to R16, R504 to R506): what each register
takes, what it refuses, and what the write starts. -/

namespace Sys2Proof.Machine

/-- A word written to a register with no effect of its own: rw bits take it, rc1 bits are cleared by a 1, but for those that
the hardware has set on this tick (R13, R15). -/
def State.plainWrite (s : State) (a : Nat) (v : Word) : State :=
  let m := regRwMask a
  s.setReg a (((s.reg a &&& ~~~m) ||| (v &&& m)) &&& ~~~(s.rc1Of a v &&& regRc1Mask a))

/-- A write taken where `ok` holds, else ignored as a whole with the error bit `n` of register `e` set. -/
def State.checkedWrite (s : State) (ok : Bool) (e n a : Nat) (v : Word) : State :=
  if ok then s.plainWrite a v else s.setBit e n true

/-- A number lies in a range. -/
def inSpan (lo hi x : Nat) : Bool := decide (lo ≤ x) && decide (x ≤ hi)

/-! ### Low blocks -/

/-- A write of CFG_SPI_CMD (R495): GO is refused whole while the engine, a boot or a load is busy; else the command starts. -/
def State.spiWrite (s : State) (v : Word) : State :=
  if bitOf v 19 then
    if s.rBit Reg.cfgSpiCmd 18 || s.rBit Reg.cfgStat 19 || s.rBit Reg.cfgLoad 12 then s.setBit Reg.cfgStat 10 true
    else
      { (s.plainWrite Reg.cfgSpiCmd v).setBit Reg.cfgSpiCmd 18 true with
        spi := some (bitOf v 17, s.rFld Reg.cfgSpiLen 0 9) }
  else s.plainWrite Reg.cfgSpiCmd v

/-- What the panel's registers take (R530, R531, R533). -/
def pnlTakes (a : Nat) (v : Word) : Bool :=
  if a = Reg.pnlCtrl then decide (2 ≤ fld v 8 8)
  else if a = Reg.pnlLong then inSpan 100 10000 (fld v 0 14)
  else if Reg.pnlBind 0 ≤ a && a < Reg.pnlBind 32 then fld v 17 2 != 3 && decide (fld v 4 4 < 12)
  else if Reg.pnlLed 0 ≤ a && a < Reg.pnlLed 12 then decide (fld v 17 3 < 5)
  else true

/-- A write below the tunings (R83, R471, R475, R481, R501, R516, R520, R533). -/
def State.writeLow (s : State) (a : Nat) (v : Word) : State :=
  if a = Reg.devRst then s.devRstWrite v
  else if a = Reg.devCrsRst then s.devCrsRstWrite v
  else if a = Reg.nutTdcCtrl then s.tdcCtrl v
  else if 0xD00 ≤ a && a < 0xE00 then
    if a % 0x20 == 0 then s.rxCtrlWrite (Fin.ofNat 8 ((a - 0xD00) / 0x20)) v else s.plainWrite a v
  else if 0xE00 ≤ a && a < 0xF00 then
    let t : RingId := Fin.ofNat 8 ((a - 0xE00) / 0x20)
    if a % 0x20 == 0 then s.txCtrlWrite t v
    else if a % 0x20 == 0x14 then s.tailWrite t v
    else s.plainWrite a v
  else if a = Reg.cfgSpiLen then s.checkedWrite (decide (fld v 0 9 ≤ 256)) Reg.cfgStat 10 a v
  else if a = Reg.cfgSpiCmd then s.spiWrite v
  else if a = Reg.pwrCtrl then s.pwrCtrlWrite v
  else if 0x3000 ≤ a then s.checkedWrite (pnlTakes a v) Reg.pnlCause 16 a v
  else s.plainWrite a v

/-! ### Time island -/

/-- A write in a tuning's block (R51, R58, R61). -/
def State.writeTun (s : State) (a : Nat) (v : Word) : State :=
  let t : TunId := Fin.ofNat 16 ((a - 0x4000) / 0x100)
  if a = Reg.tunCommit t then s.hostTunCommit t v
  else if a = Reg.tunLeapCtrl 0 then (if bitOf v 19 then s.leapArm v else s.leapCancel v)
  else if a = Reg.tunSmearLen 0 && s.rBit (Reg.tunLeapCtrl 0) 19 then s
  else s.plainWrite a v

/-- A write of PLK_EDGE_CAL (R158): AUTO = 1 queues a calibration. -/
def State.edgeCalWrite (s : State) (o : OutId) (v : Word) : State :=
  let s1 := s.plainWrite (Reg.plkEdgeCal o) v
  if bitOf v 19 then s1.calQueue o else s1

/-- A write in an edge pluck's block (R156, R158, R160). -/
def State.writeEdge (s : State) (a : Nat) (v : Word) : State :=
  let o : OutId := Fin.ofNat 8 ((a - 0x5100) / 0x80)
  if a = Reg.plkEdgeCtrl o then s.edgeCtrlWrite o v
  else if a = Reg.plkEdgeCmd o then s.edgeCmd o v
  else if a = Reg.plkEdgeCal o then s.edgeCalWrite o v
  else s.plainWrite a v

/-- A write of PICK_IVL (R119, R129): a pick that is its own start channel, and MODE 2 or 3, refuse it; a pick that leaves
START_STOP drops its waiting stamps. Under a new START the starts that wait stay (DESIGN CHOICE, notes/assumptions/175.md). -/
def State.ivlWrite (s : State) (p : PickId) (v : Word) : State :=
  if 2 ≤ fld v 18 2 || (fld v 18 2 == 1 && fld v 15 3 == p.val) then s.setBit (Reg.pickStat p) 15 true
  else
    let s1 := s.plainWrite (Reg.pickIvl p) v
    if fld v 18 2 = 0 then s1.setPick p { s1.picks.get p with stops := [], starts := [] } else s1

/-- A write in a pick's block (R110, R115, R116, R119, R122, R129). -/
def State.writePick (s : State) (a : Nat) (v : Word) : State :=
  let p : PickId := Fin.ofNat 8 ((a - 0x6000) / 0x200)
  if a = Reg.pickCtrl p then s.pickCtrlWrite p v
  else if a = Reg.pickIvl p then s.ivlWrite p v
  else if a = Reg.pickIvlWin p then s.checkedWrite (v != 0) (Reg.pickStat p) 15 a v
  else if a = Reg.pickGateLen p then s.checkedWrite (inSpan 1 1000000 v.toNat) (Reg.pickStat p) 15 a v
  else if a = Reg.pickDrain p then s.drainWrite p v
  else if a = Reg.pickDrainBase p then s.drainBaseWrite p v
  else s.plainWrite a v

/-- What the bridge's registers take (R182, R203, R214, R215); offsets from 0x8000. -/
def brgTakes (o : Nat) (v : Word) : Bool :=
  if o = 0x8 then decide (fld v 0 14 ≤ 10000)
  else if o = 0xC then decide (fld v 0 12 ≤ 3600)
  else if o = 0x10 then inSpan 1 600 (fld v 0 10)
  else if o = 0x14 then inSpan 1 64 (fld v 0 7)
  else if o = 0x18 then inSpan 4 1000 (fld v 0 10)
  else if o = 0x100 then fld v 18 2 != 3
  else if o = 0x104 || o = 0x108 then inSpan 1 100000 (fld v 0 17)
  else if o = 0x10C then inSpan 8 1023 (fld v 0 10)
  else if o = 0x110 then inSpan 1 1000000 v.toNat
  else if o = 0x200 then inSpan 60 65535 (fld v 0 16)
  else if o = 0x204 then inSpan 1 168 (fld v 0 8)
  else if o = 0x21C then fld v 0 8 == 140 || fld v 0 8 == 150 || fld v 0 8 == 160
  else if 0x3A0 ≤ o && o < 0x3C0 then fld v 17 2 != 3
  else if o = 0x3E0 || o = 0x3F0 then inSpan 10 900 (fld v 0 10)
  else true

/-- A write of BRG_FOUT_CTRL (R203, R206, R215): a change of EN restarts the synthesiser. -/
def State.foutCtrlWrite (s : State) (f : FoutId) (v : Word) : State :=
  if fld v 16 2 = 3 then s.setBit (Reg.brgFoutCtrl f) 13 true
  else
    let s1 := s.plainWrite (Reg.brgFoutCtrl f) v
    if s.rBit (Reg.brgFoutCtrl f) 19 == bitOf v 19 then s1 else s1.foutRestart f

/-- A write in a reference slot's block (R161, R181, R183). -/
def State.writeSlot (s : State) (a : Nat) (v : Word) : State :=
  let r : SlotId := Fin.ofNat 16 ((a - 0x8400) / 0x80)
  if a = Reg.brgRsCfg r then s.rsCfg r v
  else if a = Reg.brgRsCmd r then (if bitOf v 19 then s.rsClear r else s)
  else if a = Reg.brgRsTmo r then (s.checkedWrite (v != 0) Reg.brgSelCtrl 16 a v).judgeSample r
  else if a = Reg.brgRsPeriod r then s.checkedWrite (v != 0) Reg.brgSelCtrl 16 a v
  else s.plainWrite a v

/-- A write of BRG_FMU_CTRL (R110, R167, R168, R184): a change of EN or PRESC restarts the prescaler and flags the gate. -/
def State.fmuCtrlWrite (s : State) (u : FmuId) (v : Word) : State :=
  let a := Reg.brgFmuCtrl u
  if 13 ≤ fld v 14 4 || (decide (4 ≤ u.val) && decide (24 ≤ fld v 3 5)) then s.setBit (Reg.brgFmuStat u) 16 true
  else
    let s1 := s.plainWrite a v
    let s2 := if bitOf v 19 then s1.setFmu u { s1.fmus.get u with enAt := s1.nut } else s1
    let s3 :=
      if s.reg a &&& 0xBC000 = v &&& 0xBC000 then s2
      else (s2.setFmu u { s2.fmus.get u with skip := 0 }).gateSlip (.fmu u)
    if bitOf v 19 && !s3.fmuClock u then s3.fmuLost u else s3

/-- A write in an FMU's block (R122, R184). -/
def State.writeFmu (s : State) (a : Nat) (v : Word) : State :=
  let u : FmuId := Fin.ofNat 8 ((a - 0x8C00) / 0x100)
  if a = Reg.brgFmuCtrl u then s.fmuCtrlWrite u v
  else if a = Reg.brgFmuCtrl u + 0x14 then s.checkedWrite (inSpan 1 1000000 v.toNat) (Reg.brgFmuStat u) 16 a v
  else s.plainWrite a v

/-- A write in the bridge's blocks (R174, R182, R199, R208, R214, R215). -/
def State.writeBrg (s : State) (a : Nat) (v : Word) : State :=
  if a = Reg.brgSelCtrl then s.selCtrl v
  else if a = Reg.brgStepCmd then s.stepCmd v
  else if a = Reg.brgSynceCtrl then s.synceCtrl v
  else if 0x8300 ≤ a && a < 0x8380 then
    let f : FoutId := Fin.ofNat 4 ((a - 0x8300) / 0x20)
    if a = Reg.brgFoutCtrl f then s.foutCtrlWrite f v else s.plainWrite a v
  else if 0x8400 ≤ a && a < 0x8C00 then s.writeSlot a v
  else if 0x8C00 ≤ a then s.writeFmu a v
  else s.checkedWrite (brgTakes (a - 0x8000) v) Reg.brgSelCtrl 16 a v

/-- What DMP_CTRL takes (R438). -/
def State.dmpTakes (s : State) (v : Word) : Bool :=
  inSpan 1 12 (fld v 0 4) && (!s.rBit Reg.dmpCtrl 19 || fld v 0 4 == s.rFld Reg.dmpCtrl 0 4)

/-- A write between the tunings and the harp. -/
def State.writeTime (s : State) (a : Nat) (v : Word) : State :=
  if a < 0x5000 then s.writeTun a v
  else if 0x5100 ≤ a && a < 0x5500 then s.writeEdge a v
  else if 0x6000 ≤ a && a < 0x7000 then s.writePick a v
  else if a = Reg.pickHc0Ctrl then s.hc0Write v
  else if 0x8000 ≤ a && a < 0xC000 then s.writeBrg a v
  else if a = Reg.dmpCtrl then s.checkedWrite (s.dmpTakes v) Reg.dmpStat 19 a v
  else s.plainWrite a v

/-! ### Harp -/

/-- A signal's parameters that the harp takes (R233, R246); `d` is DMP and DTRACK of the signal with the other register kept. -/
def State.sigTakes (s : State) (g o : Nat) (v : Word) : Bool :=
  if o = 0 then
    fld v 12 8 != 0 && fld v 4 8 != 0 && decide (fld v 4 8 < s.rFld (Reg.harpSigSpc2 g) 12 8) && decide (fld v 2 2 < 2)
  else if o = 4 then fld v 12 8 != 0 && decide (s.rFld (Reg.harpSigSpc g) 4 8 < fld v 12 8)
  else if o = 8 then fld v 13 7 != 0 && fld v 7 6 != 0 && fld v 0 7 != 0
  else true

/-- A write in the harp's block (R232, R235, R244 to R247). -/
def State.writeHarp (s : State) (a : Nat) (v : Word) : State :=
  if a = Reg.harpCtrl then s.harpCtrl v
  else if a = Reg.harpSqCmd then s.sqCmd (bitOf v 19) (bitOf v 18)
  else if 0x10200 ≤ a && a < 0x10240 then
    s.checkedWrite (s.sigTakes ((a - 0x10200) / 0x10) (a % 0x10) v) Reg.harpStat 16 a v
  else if 0x11000 ≤ a && a < 0x11C00 then
    let h : ChanId := Fin.ofNat 96 ((a - 0x11000) / 0x20)
    if a = Reg.harpChCmd h then (if bitOf v 18 then s.chStop h else s) else s.plainWrite a v
  else s.plainWrite a v

/-! ### Ports and courses -/

/-- A write in a port's block (R273, R274, R278, R298, R426). -/
def State.writePort (s : State) (a : Nat) (v : Word) : State :=
  let p : PortId := Fin.ofNat 24 ((a - 0x40000) / 0x2000)
  if a = Reg.prtCtrl p then s.portCtrl p v
  else if a = Reg.prtMaxlen p then s.checkedWrite (inSpan 64 2048 (fld v 0 12)) (Reg.prtCtrl p) 11 a v
  else if a = Reg.prtLaunchTol p then s.checkedWrite (inSpan 1 1000 (fld v 0 10)) (Reg.prtCtrl p) 11 a v
  else if a = Reg.prtI2cCmd p then s.i2cCmd p v
  else if a = Reg.pmcPrtBw p then s.prtBwWrite p v
  else s.plainWrite a v

/-- A write of CRS_RUN (R335, R338, R494): the rc1 bits, then DRAIN, then GO. -/
def State.crsRunWrite (s : State) (c : CourseId) (v : Word) : State :=
  let s1 := s.plainWrite (Reg.crsRun c) v
  let s2 := if bitOf v 19 then s1.drain c else s1
  if bitOf v 18 then s2.goRun c else s2

/-- CRS_COMPAT.LEVEL takes a write in ROM and DRAINED, unless a load holds the course (R337, R494). -/
def State.levelOpen (s : State) (c : CourseId) : Bool :=
  (s.crsState c == CS.rom || s.crsState c == CS.drained) && !s.loadHolds c

/-- What CRS_BUF_CFG takes (R280, R299): a change of RXSLOTS, never 0, in DRAINED and RESET alone. -/
def State.slotsTakes (s : State) (c : CourseId) (v : Word) : Bool :=
  fld v 0 9 == s.rFld (Reg.crsBufCfg c) 0 9 ||
    (fld v 0 9 != 0 && (s.crsState c == CS.drained || s.crsState c == CS.reset))

/-- A write of CRS_SPEED_CFG (R33): the window in progress is discarded. -/
def State.speedWrite (s : State) (c : CourseId) (v : Word) : State :=
  let s1 := s.plainWrite (Reg.crsSpeedCfg c) v
  { s1 with speedAt := vset s1.speedAt c s1.nut }

/-- A write in the first 4 KiB of a course's block (R33, R299, R338, R439, R459). -/
def State.writeCrsLow (s : State) (c : CourseId) (o : Nat) (v : Word) : State :=
  let a := Reg.crsBase c + o
  if o = 0 then s.crsRunWrite c v
  else if o = 4 then s.checkedWrite (s.levelOpen c) (Reg.crsRun c) 13 a v
  else if o = 0xC then s.checkedWrite (fld v 0 16 != 0) (Reg.crsRun c) 13 a v
  else if o = 0x10 then s.checkedWrite (decide (1024 ≤ v.toNat)) (Reg.crsRun c) 13 a v
  else if o = 0x1C then s.hostCmd c (bitOf v 19) (bitOf v 18)
  else if o = 0x48 then s.laneWrite c v
  else if o = 0x104 then s.speedWrite c v
  else if 0x200 ≤ o && o < 0x280 && o % 16 == 0 then
    s.checkedWrite (inSpan 1 2048 (fld v 0 12)) (Reg.crsBufCfg c) 19 a v
  else if o = 0x280 then s.checkedWrite (fld v 17 2 != 3) (Reg.crsBufCfg c) 19 a v
  else if o = 0x284 then s.checkedWrite (s.slotsTakes c v) (Reg.crsBufCfg c) 19 a v
  else if 0x500 ≤ o && o < 0x510 then s.crsSelWrite c ((o - 0x500) / 4) v
  else s.plainWrite a v

/-- A write in a string's block (R306, R333, R339, R431, R439); `r` is the offset in it. -/
def State.writeStr (s : State) (st : StrId) (r : Nat) (v : Word) : State :=
  let a := Reg.strBase st + r
  if r = 0 then
    let s1 := s.plainWrite a v
    if bitOf v 19 then s1.restartStr st else s1
  else if r = 8 then s.checkedWrite (inSpan 256 65536 (fld v 0 17)) (Reg.strStat st) 14 a v
  else if 0x80 ≤ r && r < 0xA0 then
    if bitOf v 19 then s.restartCtx (Fin.ofNat 128 (st.val * 8 + (r - 0x80) / 4)) else s
  else if 0x100 ≤ r && r < 0x120 then s.strSelWrite st ((r - 0x100) / 4) v
  else if r = 0x120 then (if bitOf v 19 then s.clearStrCnt st else s)
  else s.plainWrite a v

/-- A write of a key register (R517, R518). -/
def State.writeKey (s : State) (a : Nat) (v : Word) : State :=
  if a < Reg.keyStage 32 then s.setReg a (v &&& 0xFFFF)
  else if a = Reg.keyCmd then s.keyCmdWrite (fld v 17 3) (fld v 8 7) (fld v 0 8)
  else s

/-- A write in a course's block (R508). -/
def State.writeCourse (s : State) (a : Nat) (v : Word) : State :=
  if 0x114000 ≤ a && a < 0x114200 then s.writeKey a v
  else
    let c : CourseId := Fin.ofNat 4 ((a - 0x80000) / 0x40000)
    let o := (a - 0x80000) % 0x40000
    if o < 0x1000 then s.writeCrsLow c o v
    else if 0x4000 ≤ o && o < 0x6000 then
      let g : PluckId := Fin.ofNat 256 (c.val * 64 + (o - 0x4000) / 0x80)
      if a = Reg.plkCmd g then s.plkCmd g v else s.plainWrite a v
    else if 0x8000 ≤ o && o < 0x9000 then
      if o % 0x40 == 0x28 then s.steerWrite c ((o - 0x8000) / 0x40) v else s.plainWrite a v
    else if 0x10000 ≤ o && o < 0x30000 then
      s.writeStr (Fin.ofNat 16 (c.val * 4 + (o - 0x10000) / 0x8000)) ((o - 0x10000) % 0x8000) v
    else s.plainWrite a v

/-! ### One slot -/

/-- A write of a register of one word. -/
def State.writeOne (s : State) (a : Nat) (v : Word) : State :=
  if a < 0x4000 then s.writeLow a v
  else if a < 0x10000 then s.writeTime a v
  else if a < 0x40000 then s.writeHarp a v
  else if a < 0x80000 then s.writePort a v
  else if a < 0x180000 then s.writeCourse a v
  else s.plainWrite a v

/-- What keeps a multi-word register from a write of any of its words, as the error it sets (R61, R438, R516). -/
def State.wordsShut (s : State) (base : Nat) : Option State :=
  if base = Reg.tunLeapAt 0 then (if s.rBit (Reg.tunLeapCtrl 0) 19 then some s else none)
  else if base = Reg.dmpBase then (if s.rBit Reg.dmpCtrl 19 then some (s.setBit Reg.dmpStat 19 true) else none)
  else if 0xD00 ≤ base && base < 0xE00 then
    if s.rBit (Reg.devRxCtrl ((base - 0xD00) / 0x20)) 19 then some s.hostRefuse else none
  else if 0xE00 ≤ base && base < 0xF00 then
    if s.rBit (Reg.devTxCtrl ((base - 0xE00) / 0x20)) 19 then some s.hostRefuse else none
  else none

/-- The commit of a multi-word register of `k` words (R506): FOUT restarts with it (R206). -/
def State.commitWords (s : State) (base k x : Nat) : State :=
  let s1 := s.shadowCommit base k x
  if 0x8300 ≤ base && base < 0x8380 then
    let f : FoutId := Fin.ofNat 4 ((base - 0x8300) / 0x20)
    s1.foutSet f (base == Reg.brgFoutDiv f) x
  else s1.setRegN base k x

/-- A write of word `w` of a multi-word register (R506): a lower word goes to the write shadow, the highest commits. -/
def State.writeMulti (s : State) (r : RegRow) (base w : Nat) (v : Word) : State :=
  if r.rw = 0 then s
  else
    match s.wordsShut base with
    | some t => t
    | none =>
      if w + 1 < r.words then
        { s with wrShadow := shadowPut s.wrShadow (base + 4 * w) [v &&& BitVec.ofNat 20 r.rw] }
      else if base = Reg.harpSreq then s.searchWrite v
      else s.commitWords base r.words (s.commitValue base r.words (v &&& BitVec.ofNat 20 r.top))

/-- A write of the register word at an address, as its register takes it; none where no register is (R505). -/
def State.takeWrite (s : State) (a : Nat) (v : Word) : State :=
  match regAt a with
  | some (r, w) => if r.words = 1 then s.writeOne a v else s.writeMulti r (a - 4 * w) w v
  | none => s

/-- A slot write (R504): one to T0's TUN_NEW_VAL during a step sequence is held (R200). -/
def State.writeWord (s : State) (a : Nat) (v : Word) : State :=
  if s.holding && decide (Reg.tunNewVal 0 ≤ a) && decide (a < Reg.tunNewRate 0) then s.holdWrite a v
  else s.takeWrite a v

/-- A held write applied (R200). -/
def State.applyHeld (s : State) (e : Nat × Word) : State :=
  if e.1 = Reg.tunCommit 0 then s.tunCommitWrite 0 e.2 else s.takeWrite e.1 e.2

/-- From the tick after a step sequence ends, its held writes are applied in order (R200). -/
def State.releaseHeld (s : State) : State :=
  if s.rBit Reg.brgLoopStat 16 then s
  else s.bridge.held.foldl (fun u e => u.applyHeld e) { s with bridge := { s.bridge with held := [] } }

end Sys2Proof.Machine
end

