-- ==== Sys2Proof/Machine/BootOps.lean ====
section
/-! DEFINITION. The configuration loader (R484 to R493): what each section writes, what it refuses, and the end of a boot. -/

namespace Sys2Proof.Machine

/-! ### Items -/

/-- A slot that no image item writes (R487): the key registers, DEV_RST, DEV_CRS_RST, PWR_CTRL and the CFG_ block. -/
def itemRefused (a : Nat) : Bool :=
  (0x114000 ≤ a && a < 0x114200) || a == Reg.devRst || a == Reg.devCrsRst || a == Reg.pwrCtrl ||
    (0x2000 ≤ a && a < 0x2080) || (0x2400 ≤ a && a < 0x2800)

/-- The blocks that TIME items write (R484): tunings and bridge. -/
def timeBlock (a : Nat) : Bool := (0x4000 ≤ a && a < 0x5000) || (0x8000 ≤ a && a < 0xC000)

/-- The slots that a warm boot's PRELOAD items write (R491); the key registers among them are refused. -/
def warmBlock (a : Nat) : Bool :=
  (0x40000 ≤ a && a < 0x80000) ||
    (0x80000 ≤ a && a < 0x180000 && !(0x4000 ≤ (a - 0x80000) % 0x40000 && (a - 0x80000) % 0x40000 < 0x6000))

/-- The slots that a load of course c writes (R493). -/
def courseBlock (c : CourseId) (a : Nat) : Bool := Reg.crsBase c ≤ a && a < Reg.crsBase c + 0x40000

/-- A refused item (R487). -/
def State.rejectItem (s : State) : State := (s.addSat Reg.cfgRej 1).orReg Reg.cfgCause 0x10000

/-- PRELOAD and TIME items in order (R484, R487): those whose slot `mine` does not take are skipped, those that `bad` refuses are
counted. -/
def State.loadRegs (s : State) (mine bad : Nat → Bool) (items : List (List Word)) : State :=
  items.foldl (fun u i =>
    let a := 4 * (i.getD 0 0).toNat
    if !mine a then u else if bad a then u.rejectItem else u.writeWord a (i.getD 1 0)) s

/-- Words written to a course's program table from a word address on; damaged words among them are whole again. -/
def State.storeProg (s : State) (c : CourseId) (a : Nat) (ws : List Word) : State :=
  { s.onCourse c fun v => { v with prog := v.prog.writes a ws } with
    bad := s.bad.filter fun e => !(e.1 == .programTable && e.2.1 == c.val && a ≤ e.2.2 && decide (e.2.2 < a + ws.length)) }

/-- Words written to a course's data SRAM from an address on. -/
def State.storeSram (s : State) (c : CourseId) (a : Nat) (ws : List Word) : State :=
  { s.onCourse c fun v => { v with data := v.data.writes a ws } with
    bad := s.bad.filter fun e => !(e.1 == .dataSram && e.2.1 == c.val && a ≤ e.2.2 && decide (e.2.2 < a + ws.length)) }

/-- Words written to the client table by the host or the loader: R337 does not apply (R510). -/
def State.storeTable (s : State) (a : Nat) (ws : List Word) : State :=
  { s with client := s.client.writes a ws, bad := s.bad.filter fun e => !(e.1 == .clientTable && a ≤ e.2.2 && decide (e.2.2 < a + ws.length)) }

/-- Tag areas written from an index on (R484, R498). -/
def State.storeTags (s : State) (n : Nat) : List (List Word) → State
  | [] => s
  | g :: gs => (s.setRegN (Reg.tag n) 4 (ofWords g)).storeTags (n + 1) gs

/-- A PROGRAM or DATA section of a powered course that `mine` takes (R484): an instruction occupies three words, C, B and A. -/
def State.loadCode (s : State) (mine : CourseId → Bool) (x : ImageSection) : State :=
  let c : CourseId := Fin.ofNat 4 x.target
  if !mine c || !s.powered (1 + c.val) then s
  else if x.type = 2 then s.storeProg c (3 * x.start) x.items
  else s.storeSram c x.start x.items

/-! ### Apply passes -/

/-- A section of the first part of a cold boot's apply pass (R488, step 4). -/
def State.applyCold (s : State) (x : ImageSection) : State :=
  match x.type with
  | 1 => s.loadRegs (fun _ => true) itemRefused x.groups
  | 4 => s.storeTable x.start x.items
  | 5 => s.storeTags x.start x.groups
  | 6 => s
  | _ => s.loadCode (fun _ => true) x

/-- A TIME section (R484, R487). -/
def State.applyTime (s : State) (x : ImageSection) : State :=
  if x.type = 6 then s.loadRegs (fun _ => true) (fun a => itemRefused a || !timeBlock a) x.groups else s

/-- A section of a warm boot's apply pass (R491). -/
def State.applyWarm (s : State) (x : ImageSection) : State :=
  match x.type with
  | 1 => s.loadRegs warmBlock itemRefused x.groups
  | 2 => s.loadCode (fun _ => true) x
  | 3 => s.loadCode (fun _ => true) x
  | _ => s

/-- A section of a course load's apply pass (R493). -/
def State.applyCourse (s : State) (c : CourseId) (x : ImageSection) : State :=
  match x.type with
  | 1 => s.loadRegs (courseBlock c) itemRefused x.groups
  | 2 => s.loadCode (fun k => k == c) x
  | 3 => s.loadCode (fun k => k == c) x
  | _ => s

/-! ### Levels, versions and results -/

/-- LEVEL and CFG_CRS_VER of a course (R488, R493). -/
def State.stampCourse (s : State) (c : CourseId) (h : ImageHeader) : State :=
  (s.setFld (Reg.crsCompat c) 0 8 h.compat).setRegN (Reg.cfgCrsVer c) 2 h.ver

/-- The outcome of a verify pass (R486, R501): REASON, CFG_CHECK where the CRC was formed, and the version of an accepted
image. -/
def State.noteImage (s : State) (flash : List Byte) : State :=
  let h := imageHeader (imageWords flash)
  let s1 := s.setFld Reg.cfgStat 11 3 (imageReason flash)
  let s2 := if headerReason flash == 0 && sectionsOk flash then s1.setRegN Reg.cfgCheck 2 (imageCrc flash) else s1
  if imageReason flash = 0 then
    (s2.setRegN Reg.cfgImgVer 2 h.ver).setReg Reg.cfgImgHdr (BitVec.ofNat 20 (h.format * 4096 + h.compat))
  else s2

/-- GO of the image for a course (R488): from ROM or DRAINED to RUN. -/
def State.imageGo (s : State) (c : CourseId) : State :=
  if s.crsState c = CS.rom || s.crsState c = CS.drained then
    ((s.freshCtxs c).clearEvents c).setCrsState c CS.run
  else s

/-- Step 5 of a boot (R488): the powered courses get LEVEL and version, and those that GO names run. -/
def State.bootCourses (s : State) (h : ImageHeader) : State :=
  foldFin 4 (fun c u =>
    if u.powered (1 + c.val) then
      let t := u.stampCourse c h
      if h.go.testBit c.val then t.imageGo c else t
    else u) s

/-- A boot accepted its image: DEFAULTED and WARM_DEF clear (R489, R492). -/
def State.bootAccepted (s : State) : State := (s.setBit Reg.cfgStat 18 false).setBit Reg.cfgStat 17 false

/-- A boot applied defaults (R489, R492). -/
def State.bootDefaulted (s : State) : State := (s.setBit Reg.cfgStat 18 true).orReg Reg.cfgCause 0x40000

/-- Step 6 of a boot (R488): BUSY clears and CFG_CAUSE.DONE is set. -/
def State.bootEnd (s : State) : State := (s.setBit Reg.cfgStat 19 false).orReg Reg.cfgCause 0x80000

/-! ### Cold boot -/

/-- The domains of `on` that are off power up, in order (R477, R488). -/
def State.powerDomains (s : State) (on : Nat) : State :=
  let s1 := (({ s with power := { s.power with trans := none } }).setBit Reg.pwrStat 19 false).setReg Reg.pwrCtrl
    (BitVec.ofNat 20 (on % 4096))
  foldFin 12 (fun d u =>
    if on.testBit d.val && !u.powered d.val then (u.domainUp d).orReg Reg.pwrCause 0x80000 else u) s1

/-- Every word of the client table, and of the powered courses' program tables and data SRAM, 0 (R488, step 2). -/
def State.zeroMemories (s : State) : State :=
  let s1 : State := { s with client := Memory.zero, bad := s.bad.filter fun e => e.1 != MemKind.clientTable }
  foldFin 4 (fun c u =>
    if u.powered (1 + c.val) then
      let t := u.loseCode c
      t.onCourse c fun v => { v with prog := Memory.zero, data := Memory.zero }
    else u) s1

/-- The factory-default register values (R489): every rw bit at its cold-reset value, and no steering entry committed. -/
def State.factoryRegs (s : State) : State :=
  let s1 := s.regs.foldl (fun (u : State) e =>
    u.setReg e.1 ((e.2 &&& ~~~(regRwMask e.1)) ||| (regReset e.1 &&& regRwMask e.1))) s
  s1.clearRegs (steerHeld 0 0) (steerHeld 4 0)

/-- A cold boot whose image fails (R489): factory defaults, every domain on, every course in ROM. -/
def State.bootFails (s : State) : State :=
  let s1 := (((s.devCrsRstWrite 0).factoryRegs).powerDomains 0xFFF).zeroMemories
  let s2 := foldFin 4 (fun c u => (u.setCrsState c CS.rom).stampCourse c
    { format := 0, compat := 0, ver := 0, length := 0, nsec := 0, pwrOn := 0, go := 0 }) s1
  (s2.bootDefaulted).bootEnd

/-- A cold boot (R488, R489). -/
def State.bootCold (s : State) (flash : List Byte) : State :=
  let h := imageHeader (imageWords flash)
  let s1 := if headerReason flash = 0 then (s.powerDomains h.pwrOn).zeroMemories else s
  let s2 := s1.noteImage flash
  if imageReason flash = 0 then
    let xs := acceptedSections flash
    let s3 := xs.foldl (fun u x => u.applyTime x) (xs.foldl (fun u x => u.applyCold x) s2)
    ((s3.bootCourses h).bootAccepted).bootEnd
  else s2.bootFails

/-! ### Warm boot -/

/-- The end of a warm reset (R473): WARM_DONE is set. -/
def State.warmEnd (s : State) : State := ((s.bootEnd).setBit Reg.pwrStat 18 false).orReg Reg.pwrCause 0x08000

/-- A course leaves the course reset of a warm reset (R334, R475): DRAINED, or ROM after a power-up; one under HOLD stays. -/
def State.warmRelease (s : State) (c : CourseId) (toRom : Bool) : State :=
  if !s.powered (1 + c.val) || s.rBit Reg.devCrsRst c then s
  else if toRom || (s.course c).toRom then (s.setCrsState c CS.rom).onCourse c fun v => { v with toRom := false }
  else s.enterDrained c

/-- A warm boot (R491, R492). -/
def State.bootWarm (s : State) (flash : List Byte) : State :=
  let h := imageHeader (imageWords flash)
  let s1 := s.noteImage flash
  if imageReason flash = 0 then
    let s2 := (acceptedSections flash).foldl (fun u x => u.applyWarm x) s1
    ((foldFin 4 (fun c u => u.warmRelease c false) s2).bootCourses h).bootAccepted.warmEnd
  else ((foldFin 4 (fun c u => u.warmRelease c true) s1).setBit Reg.cfgStat 17 true).bootDefaulted.warmEnd

/-! ### Course load -/

/-- A write of CFG_LOAD (R493): GO with the loader or the SPI engine busy answers BUSY, with the course in another state than ROM
or DRAINED answers STATE, and else starts the load. -/
def State.loadWrite (s : State) (v : Word) (flash : List Byte) : State :=
  let c : CourseId := Fin.ofNat 4 (fld v 16 2)
  let answer := fun (u : State) (r : Nat) => (u.setFld Reg.cfgLoad 13 3 r).orReg Reg.cfgCause 0x20000
  let s1 := s.plainWrite Reg.cfgLoad v
  if !bitOf v 19 then s1
  else if s.rBit Reg.cfgStat 19 || s.rBit Reg.cfgLoad 12 || s.rBit Reg.cfgSpiCmd 18 then answer s1 6
  else if s.crsState c ≠ CS.rom ∧ s.crsState c ≠ CS.drained then answer s1 3
  else { s1.setBit Reg.cfgLoad 12 true with load := some { course := c, guard := bitOf v 18, flash := flash } }

/-- The GUARD check fails (R337, R493): the image lies more than one level above H. -/
def State.guardFails (s : State) (guard : Bool) (compat : Nat) : Bool :=
  guard && ((List.range 4).any fun c => CS.run ≤ s.crsState c && s.crsState c ≤ CS.drained) &&
    decide (s.highLevel + 1 < compat)

/-- The apply pass of a course load (R132, R493): its general plucks are disarmed, and it is left in DRAINED. -/
def State.loadCourse (s : State) (c : CourseId) (flash : List Byte) : State :=
  let s1 := (foldFin 64 (fun g u => u.disarmGen ⟨c.val * 64 + g.val, by omega⟩) s).endPass
  let s2 := (acceptedSections flash).foldl (fun u x => u.applyCourse c x) s1
  let s3 := s2.stampCourse c (imageHeader (imageWords flash))
  if s3.crsState c = CS.drained then s3 else s3.enterDrained c

/-- The end of a course load (R493). -/
def State.finishLoad (s : State) (j : LoadJob) : State :=
  let s1 := s.noteImage j.flash
  if imageReason j.flash ≠ 0 then s1.loadEnd 2
  else if s1.guardFails j.guard (imageHeader (imageWords j.flash)).compat then s1.loadEnd 4
  else (s1.loadCourse j.course j.flash).loadEnd 1

end Sys2Proof.Machine
end

