-- ==== Sys2Proof/Machine/Access.lean ====
section
/-! DEFINITION. The host's slot accesses (R504 to R506, R509) and its writes to the memory windows of BAR2 (R510, R511). -/

namespace Sys2Proof.Machine

/-! ### BAR0 -/

/-- An address names a BAR0 slot (R504). -/
def bar0Slot (a : Nat) : Bool := a % 4 == 0 && decide (a < 0x1000000)

/-- DEV_HOST_CAUSE.BAD_ACCESS (R504). -/
def State.badAccess (s : State) : State := s.orReg Reg.devHostCause 0x10000

/-- REGISTER_WRITE (R490, R504, R505): one slot write; one whose byte enables are not all set is discarded, and during a
cold boot counted as any other. -/
def execRegisterWrite (addr : Nat) (v : Word) (full : Bool) (s : State) : Host.Outcome State Fault Refusal :=
  if bar0Slot addr then
    .next (
      let a := s.hostAddr addr
      if full then s.hostWrite a fun t => t.writeWord a v
      else if s.hostUp then (s.hostWrite a id).badAccess
      else s)
  else .refused .illFormed

/-- MULTIWORD_COMMIT (R506): a write of the highest word of a multi-word register. -/
def execMultiwordCommit (addr : Nat) (v : Word) (s : State) : Host.Outcome State Fault Refusal :=
  if bar0Slot addr then .next (s.hostWrite (s.hostAddr addr) fun t => t.writeWord (t.hostAddr addr) v)
  else .refused .illFormed

/-- Every word of a multi-word register latched by a read of word 0 (R506). A captured source is captured on that tick: SI between
two markers is a free value. -/
def State.latchWords (s : State) (a k : Nat) : State :=
  if a = Reg.harpSi then
    let (v, t) := s.liveSi
    (t.setRegN Reg.harpSi 3 v).latch Reg.harpSi 3 v
  else s.latch a k (s.readWords a k)

/-- The captured sources (R506) as the commands that read them: NUT_NOW, TUN_READ, PICK_QPOP, PNL_EVT and PMC_LEG_VAL. -/
def captureOf (a : Nat) : Option (State → Host.Outcome State Fault Refusal) :=
  if a = Reg.nutNow then some execNutNowRead
  else if a = Reg.pnlEvt then some execPanelEvtPop
  else if a = Reg.pmcLegVal then some execLegWindowRead
  else if 0x4000 ≤ a && a < 0x5000 && a % 0x100 == 0x70 then some (execTunRead (Fin.ofNat 16 ((a - 0x4000) / 0x100)))
  else if 0x6000 ≤ a && a < 0x7000 && a % 0x200 == 0x30 then some (execPickQpop (Fin.ofNat 8 ((a - 0x6000) / 0x200)))
  else none

/-- MULTIWORD_LATCH (R506): a host read of word 0 of a multi-word register. -/
def execMultiwordLatch (addr : Nat) (s : State) : Host.Outcome State Fault Refusal :=
  if bar0Slot addr then
    let a := s.hostAddr addr
    match captureOf a with
    | some f => f s
    | none =>
      match regAt a with
      | some (r, 0) => .next (if decide (2 ≤ r.words) && s.hostReads a then s.latchWords a r.words else s)
      | _ => .next s
  else .refused .illFormed

/-! ### BAR2 -/

/-- DEV_HOST_CAUSE.OFF_ACCESS (R510). -/
def State.offAccess (s : State) : State := s.orReg Reg.devHostCause 0x20000

/-- A DW of a word window: one whose byte enables are not all set is discarded (R504, R510). -/
def State.wordWindow (s : State) (be : BitVec 4) (f : State → State) : State := if be = 0xF then f s else s.badAccess

/-- A window of a domain: while it is off, writes are discarded (R510). -/
def State.domainWindow (s : State) (d : Nat) (f : State → State) : State := if s.powered d then f s else s.offAccess

/-- A word for the program table of course c (R334, R336, R510). -/
def State.progWindow (s : State) (c : CourseId) (o : Nat) (w : Word) : State :=
  if 0x60000 ≤ o then s
  else if s.crsState c = CS.run || s.crsState c = CS.draining then s.setBit (Reg.crsRun c) 14 true
  else s.storeProg c (o / 4) [w]

/-- Bytes of a DW stored to a packet buffer where their byte enables are set (R510). -/
def State.bufWindow (s : State) (c : CourseId) (o : Nat) (v : BitVec 32) (be : BitVec 4) : State :=
  (List.range 4).foldl (fun u i =>
    if be.getLsbD i then u.storeBytes c (o + i) [BitVec.ofNat 8 (v.toNat >>> (8 * i))] else u) s

/-- A DW write to a window of BAR2 (R82, R249, R336, R510); a program table whose course is powered down sets WR_REJ as well. -/
def State.windowWrite (s : State) (a : Nat) (v : BitVec 32) (be : BitVec 4) : State :=
  let w := v.setWidth 20
  if a < 0x400000 then
    let c : CourseId := Fin.ofNat 4 (a / 0x100000)
    let t := s.domainWindow (1 + c.val) fun t => t.wordWindow be fun u => u.progWindow c (a % 0x100000) w
    if !s.powered (1 + c.val) && decide (a % 0x100000 < 0x60000) then t.setBit (Reg.crsRun c) 14 true else t
  else if a < 0xC00000 then
    let c : CourseId := Fin.ofNat 4 ((a - 0x400000) / 0x200000)
    s.domainWindow (1 + c.val) fun t => t.wordWindow be fun u => u.storeSram c ((a - 0x400000) % 0x200000 / 4) [w]
  else if a < 0x1000000 then
    let c : CourseId := Fin.ofNat 4 ((a - 0xC00000) / 0x100000)
    s.domainWindow (1 + c.val) fun t => t.bufWindow c (a % 0x100000) v be
  else if a < 0x1400000 then s
  else if a < 0x2400000 then s.wordWindow be fun u => u.storeTable ((a - 0x1400000) / 4) [w]
  else if a < 0x2600000 then s.domainWindow 10 fun t => t.wordWindow be id
  else if a < 0x2642000 then s.wordWindow be id
  else s

/-- The windows that a warm reset shuts (R474): program tables, data SRAM and packet buffers. -/
def State.windowShut (s : State) (a : Nat) : Bool := s.rBit Reg.pwrStat 18 && decide (a < 0x1000000)

/-- BAR2_WRITE (R474, R490, R510): one DW; during a cold boot it is discarded and counted. -/
def execBar2Write (addr : Nat) (v : BitVec 32) (be : BitVec 4) (s : State) : Host.Outcome State Fault Refusal :=
  if addr % 4 = 0 ∧ addr < 0x4000000 then
    .next (
      if !s.hostUp || s.windowShut addr then s
      else if s.coldBooting then (s.addSat Reg.cfgHostdrop 1).orReg Reg.cfgCause 0x08000
      else s.windowWrite addr v be)
  else .refused .illFormed

end Sys2Proof.Machine
end

