-- ==== Sys2Proof/Machine/Boot.lean ====
section
/-! DEFINITION. Boots, course loads and SPI commands (R488 to R495). -/

namespace Sys2Proof.Machine

/-- COLD_BOOT (R488 to R490): the whole boot, once the nut runs. -/
def execColdBoot (flash : List Byte) (s : State) : Host.Outcome State Fault Refusal :=
  .next (if s.power.phase == Phase.up && s.coldBooting then s.bootCold flash else s)

/-- WARM_BOOT (R491, R492): the load of a warm reset; it waits for the SPI engine (R495). -/
def execWarmBoot (flash : List Byte) (s : State) : Host.Outcome State Fault Refusal :=
  .next (if s.rBit Reg.pwrStat 18 && s.rBit Reg.cfgStat 19 && !s.rBit Reg.cfgSpiCmd 18 then s.bootWarm flash else s)

/-- COURSE_LOAD (R493, R494): a host write of CFG_LOAD. -/
def execCourseLoad (v : Word) (flash : List Byte) (s : State) : Host.Outcome State Fault Refusal :=
  .next (s.hostWrite Reg.cfgLoad fun t => t.loadWrite v flash)

/-- COURSE_LOAD_DONE (R493). -/
def execCourseLoadDone (s : State) : Host.Outcome State Fault Refusal :=
  .next (match s.load with
    | some j => s.finishLoad j
    | none => s)

/-- SPI_COMMAND (R495): a host write of CFG_SPI_CMD. -/
def execSpiCommand (v : Word) (s : State) : Host.Outcome State Fault Refusal :=
  .next (s.hostWrite Reg.cfgSpiCmd fun t => t.spiWrite v)

/-- Bytes received into CFG_SPI_BUF from byte `i` on (R495). -/
def State.spiFill (s : State) (i : Nat) : List Byte → State
  | [] => s
  | b :: bs => (s.setReg (Reg.cfgSpiBuf i) (b.setWidth 20)).spiFill (i + 1) bs

/-- SPI_COMMAND_DONE (R495): BUSY clears; a command with WRITE = 0 has received LEN bytes. -/
def execSpiCommandDone (data : List Byte) (s : State) : Host.Outcome State Fault Refusal :=
  .next (match s.spi with
    | some (write, n) =>
      let s1 : State := { s.setBit Reg.cfgSpiCmd 18 false with spi := none }
      if write then s1 else s1.spiFill 0 ((data ++ List.replicate n 0xFF).take n)
    | none => s)

end Sys2Proof.Machine
end

