-- ==== Sys2Proof/Machine/FloatIns.lean ====
section
/-! DEFINITION. Linkan-20: float60 instructions (R349 to R351). -/

namespace Sys2Proof.Machine

/-- A float60 result settled (R349): a NaN operand gives a NaN whose sign and mantissa are free values, an exact cancellation
a zero whose sign is one. -/
def State.settle (s : State) : FRes → W60 × State
  | .val w => (w, s)
  | .anyNan =>
    let (v, s1) := s.free 49
    let m := v.toNat % 2 ^ 48
    (f60Pack (v.getLsbD 48) 2047 (if m = 0 then 1 else m), s1)
  | .anyZero =>
    let (v, s1) := s.free 1
    (f60Zero (v.getLsbD 0), s1)

/-- Z and N of a float60 result (R350). -/
def Flags.float (g : Flags) (w : W60) : Flags := { g with z := f60IsZero w, n := w.getLsbD 59 }

/-- A float60 instruction of three words: `op` gives the result; `byZero` says whether a B of 0 counts for V (R350). -/
def State.floatOp (s : State) (x : CtxId) (f : Fields) (n : Nat) (useB byZero : Bool) (op : W60 → W60 → FRes) : State :=
  s.issue x f n (f.w == 3 && f.sel != 1 && (!useB || f.bOk 3) && f.abd) fun t =>
    (if useB then t.srcB x f 3 else .val 0 t).bind fun b u =>
      let a : W60 := BitVec.ofNat 60 ((u.ctx x).chord f.srca.toNat 3)
      let bw : W60 := BitVec.ofNat 60 b
      let (r, u1) := u.settle (op a bw)
      let fin := f60Finite a && (!useB || f60Finite bw)
      let v := f60V (fin || (byZero && f60IsZero bw)) r
      .go (useB && f.slow) ((u1.setChord x f.dst 3 r.toNat).setFlags x f fun g => { g.float r with v := v })

/-- FADD. -/
def execFadd (x : CtxId) (f : Fields) (s : State) : Host.Outcome State Fault Refusal :=
  .next (s.floatOp x f 2 true false fAdd)
/-- FSUB. -/
def execFsub (x : CtxId) (f : Fields) (s : State) : Host.Outcome State Fault Refusal :=
  .next (s.floatOp x f 2 true false fSub)
/-- FMUL. -/
def execFmul (x : CtxId) (f : Fields) (s : State) : Host.Outcome State Fault Refusal :=
  .next (s.floatOp x f 2 true false fMul)
/-- FDIV. -/
def execFdiv (x : CtxId) (f : Fields) (s : State) : Host.Outcome State Fault Refusal :=
  .next (s.floatOp x f 12 true true fDiv)
/-- FSQRT. -/
def execFsqrt (x : CtxId) (f : Fields) (s : State) : Host.Outcome State Fault Refusal :=
  .next (s.floatOp x f 16 false false fun a _ => fSqrt a)

/-- FCMP: Z, N, C and V; with a NaN operand V alone (R350). -/
def execFcmp (x : CtxId) (f : Fields) (s : State) : Host.Outcome State Fault Refusal :=
  .next (s.issue x f 2 (f.w == 3 && f.sel != 1 && f.bOk 3 && chordOk f.srca 3) fun t =>
    (t.srcB x f 3).bind fun b u =>
      let a : W60 := BitVec.ofNat 60 ((u.ctx x).chord f.srca.toNat 3)
      let bw : W60 := BitVec.ofNat 60 b
      let nan := f60IsNan a || f60IsNan bw
      let o := f60Order a bw
      .go f.slow (u.setFlags x f fun g =>
        { g with z := !nan && o == 0, n := !nan && decide (o < 0), c := !nan && decide (0 ≤ o), v := nan }))

/-- FABS and FNEG: the sign bit alone changes. -/
def State.signOp (s : State) (x : CtxId) (f : Fields) (op : W60 → W60) : State :=
  s.unary x f 1 3 3 (f.w == 3 && f.sel != 1) fun a g => ((op (BitVec.ofNat 60 a)).toNat, g.float (op (BitVec.ofNat 60 a)))

/-- FABS: s := 0. -/
def execFabs (x : CtxId) (f : Fields) (s : State) : Host.Outcome State Fault Refusal :=
  .next (s.signOp x f fun w => w &&& ~~~(f60Pack true 0 0))
/-- FNEG: s inverted. -/
def execFneg (x : CtxId) (f : Fields) (s : State) : Host.Outcome State Fault Refusal :=
  .next (s.signOp x f fun w => w ^^^ f60Pack true 0 0)

/-- FCVTI: the integer A, signed with MODE[0], as a float60 (R351). -/
def execFcvti (x : CtxId) (f : Fields) (s : State) : Host.Outcome State Fault Refusal :=
  .next (s.unary x f 2 f.w 3 (f.widOk && f.sel != 1) fun a g =>
    let v : Int := if f.m 0 then signedOf (20 * f.w) a else a
    ((f60OfExact v 0).toNat, { g.float (f60OfExact v 0) with v := false }))

/-- FCVTF: the float60 at G(SRCA) as an integer of WID words (R351). -/
def execFcvtf (x : CtxId) (f : Fields) (s : State) : Host.Outcome State Fault Refusal :=
  .next (s.unary x f 2 3 f.w (f.widOk && f.sel != 1) fun a g =>
    let r := f60ToWords f.w (f.mode.toNat % 4) (f.m 2) (BitVec.ofNat 60 a)
    (r.1, { g.zn (20 * f.w) r.1 with v := r.2 }))

/-- FSCL: A × 2^k with k the word 0 of B, signed (R349). BSEL 1 is legal here (R350). -/
def execFscl (x : CtxId) (f : Fields) (s : State) : Host.Outcome State Fault Refusal :=
  .next (s.issue x f 1 (f.w == 3 && f.bOk 3 && f.abd) fun t =>
    (t.srcB x f 3).bind fun b u =>
      let a : W60 := BitVec.ofNat 60 ((u.ctx x).chord f.srca.toNat 3)
      let (r, u1) := u.settle (fScale a (BitVec.ofNat 20 b : Word).toInt)
      .go f.slow ((u1.setChord x f.dst 3 r.toNat).setFlags x f fun g => { g.float r with v := f60V (f60Finite a) r }))

end Sys2Proof.Machine
end

