-- ==== Sys2Proof/Machine/Replicas.lean ====
section
/-! DEFINITION. The nut check and what a failed replica brings about (R39, R451 to R453). -/

namespace Sys2Proof.Machine

/-- The check word: the XOR of the four words of a nut value (R39). -/
def checkOf (n : Nut) : Word := (toWords 4 n.toNat).foldl (fun a b => a ^^^ b) 0

/-- The value a replica holds. -/
def State.replicaNut (s : State) (i : ReplicaId) : Nut := s.nut + (s.replicas.get i).dev

/-- A replica changed. -/
def State.onReplica (s : State) (i : ReplicaId) (f : Replica → Replica) : State :=
  { s with replicas := vset s.replicas i (f (s.replicas.get i)) }

/-- A disturbance: bits of a replica's value inverted. -/
def State.upsetReplica (s : State) (i : ReplicaId) (bits : Nut) : State :=
  s.onReplica i fun r => { r with dev := ((s.nut + r.dev) ^^^ bits) - s.nut }

/-- A replica takes part in the check: it is in service or reloaded. -/
def Replica.checked (r : Replica) : Bool := r.fence == .service || r.fence == .reloaded

/-- The replicas that fail this check (R39). -/
def State.failing (s : State) : List ReplicaId :=
  (List.finRange 28).filter fun (i : ReplicaId) =>
    (s.replicas.get i).checked && checkOf (s.replicaNut i) != checkOf s.nut

/-- The MISMATCH bit and the count of a failed check (R39, R41). -/
def State.noteMismatch (s : State) (i : ReplicaId) : State :=
  let s1 := s.addSat Reg.nutChkCnt 1
  if i.val < 4 then s1.setBit Reg.nutChkCrs i.val true
  else if i.val < 24 then s1.setBit Reg.nutChkFreta (i.val - 4) true
  else s1.setBit Reg.nutChkFretb (i.val - 24) true

/-- CAL_WARN set in a descriptor of port p whose frame, stored in its slot, was captured on tick `n0` or later (R281, R451). -/
def warnDesc (p : Nat) (n0 : Nut) (at_ : Sparse Nut) (d : Vector Word 12) : Vector Word 12 :=
  let late := (Sparse.find at_ ((d.get 5).toNat / 2048)).any fun t => reached t n0
  if fld (d.get 4) 12 5 = p && late then vset d 4 (d.get 4 ||| 0x40000) else d

/-- The descriptors of port p that still wait carry CAL_WARN from the last check its replica passed (R451); one that a context or the host
has taken within those 400 ticks stays as taken (DESIGN CHOICE, notes/assumptions/180.md). -/
def State.warnPort (s : State) (p : PortId) : State :=
  let n0 := s.nut - 65536000
  s.onCourse (homeOf p) fun v =>
    { v with classes := v.classes.map fun q => q.map (warnDesc p.val n0 v.capAt),
             punts := v.punts.map fun u => { u with desc := warnDesc p.val n0 v.capAt u.desc } }

/-- A failed replica is fenced, or at its fourth failure within 1 s hard-fenced with its port or course in reset
(R39, R449, R451, R452, R457). -/
def State.fenceReplica (s : State) (i : ReplicaId) : State :=
  let r := s.replicas.get i
  let fs := s.nut :: r.fails.filter fun t => decide ((s.nut - t).toNat < (msNut 1000).toNat)
  let hard := decide (4 ≤ fs.length)
  let s1 := s.errRecord 12 (if hard then 3 else 2) (if i.val < 4 then 1 else 3) (if i.val < 4 then i.val else i.val - 4)
    (checkOf (s.replicaNut i)) (checkOf s.nut)
  let s2 := s1.onReplica i fun v => { v with fence := if hard then .hard else .fenced, fails := fs }
  if h : i.val < 4 then
    if hard then (s2.setBit Reg.devCrsRst i.val true).courseReset ⟨i.val, h⟩ else s2
  else
    let p : PortId := ⟨i.val - 4, by omega⟩
    let s3 := s2.warnPort p
    if hard then (s3.onPort p fun y => { y with held := true }).portScope p else s3

/-- The contexts that waited for their course's replica issue again (R451). -/
def State.unfence (s : State) (c : CourseId) : State :=
  (courseCtxs c).foldl (fun u x =>
    if (u.ctx x).mode == .stall && (u.ctx x).stall == .fence then u.enterRun x else u) s

/-- A fenced replica is loaded from the master (R39). -/
def State.reloadReplica (s : State) (i : ReplicaId) : State :=
  s.onReplica i fun r => { r with dev := 0, fence := .reloaded }

/-- A reloaded replica that passes rejoins service (R39). -/
def State.rejoin (s : State) (i : ReplicaId) : State :=
  let s1 := s.onReplica i fun r => { r with fence := .service }
  if h : i.val < 4 then s1.unfence ⟨i.val, h⟩ else s1

/-- What a check tick does to a replica that did not fail (R39). -/
def State.passReplica (s : State) (i : ReplicaId) : State :=
  match (s.replicas.get i).fence with
  | .fenced => s.reloadReplica i
  | .reloaded => s.rejoin i
  | _ => s

/-- The check (R39, R449, R452, R453): failures are noted; 15 or more are NUT_MASTER, after which no replica is fenced or
reloaded. -/
def State.checkReplicas (s : State) : State :=
  let fs := s.failing
  let s1 := fs.foldl (fun u i => u.noteMismatch i) s
  if s.rBit Reg.irqFault 15 then s1
  else if 15 ≤ fs.length then s1.errRecord 13 1 0 0 (BitVec.ofNat 20 fs.length) 0
  else foldFin 28 (fun i u => if fs.contains i then u.fenceReplica i else u.passReplica i) s1

/-- CHECK_TICK (R39): a tick on which the nut is a multiple of 65,536,000. -/
def execCheckTick (upset : List (ReplicaId × Nut)) (s : State) : Host.Outcome State Fault Refusal :=
  .next (
    if s.nutRun && s.nut.toNat % 65536000 == 0 then
      (upset.foldl (fun u e => u.upsetReplica e.1 e.2) s).checkReplicas
    else s)

end Sys2Proof.Machine
end

