-- ==== Sys2Proof/Machine/Resets.lean ====
section
/-! DEFINITION. The commands of resets, PCIe, crossings, power domains, supplies, LO_IN and JTAG (R466 to R481, R502, R503, R540
to R558). -/

namespace Sys2Proof.Machine

/-! ### Cold reset and the PLL -/

/-- The strap sample that PWR_LO.LO_SEL shows (R540). -/
def State.sampleStrap (s : State) (loSel : BitVec 3) : State := s.setFld Reg.pwrLo 0 3 loSel.toNat

/-- POWER_ON (R470, R540, R551): VDD_TI comes up; the straps are sampled, and the TAP selects IDCODE. -/
def execPowerOn (loSel : BitVec 3) (s : State) : Host.Outcome State Fault Refusal :=
  .next (({ s with power := { s.power with jtag := .idcode, bsr := [] } }.coldReset 0).sampleStrap loSel)

/-- RST_N_ASSERT (R558): 1 µs or longer is a cold reset for as long as RST_N stays low; shorter than 100 ns never is; between
those it is open. -/
def execRstNAssert (ns : Nat) (s : State) : Host.Outcome State Fault Refusal :=
  .next (
    let cold := fun (u : State) => ({ u with power := { u.power with rstLow := true } }).coldReset 1
    if 1000 ≤ ns then cold s
    else if ns < 100 then s
    else
      let (b, s1) := s.free 1
      if b = 1 then cold s1 else s1)

/-- RST_N_RELEASE (R540, R558): the straps are sampled on the rising edge. -/
def execRstNRelease (loSel : BitVec 3) (s : State) : Host.Outcome State Fault Refusal :=
  .next (({ s with power := { s.power with rstLow := false } }).sampleStrap loSel)

/-- PLL_LOCK (R473, R540, R543): the time-island PLL locks once RST_N is high, LO_SEL names a frequency and LO_IN runs. -/
def execPllLock (s : State) : Host.Outcome State Fault Refusal :=
  .next (
    if s.power.phase == .held && !s.power.rstLow && s.power.loIn && decide (s.rFld Reg.pwrLo 0 3 ≤ 5) then
      ({ s with power := { s.power with phase := .locked } }).setBit Reg.pwrLo 19 true
    else s)

/-- COLD_RESET_CMD (R470, R471): a write of DEV_RST. -/
def execColdResetCmd (v : Word) (s : State) : Host.Outcome State Fault Refusal :=
  .next (s.hostWrite Reg.devRst fun t => t.devRstWrite v)

/-- WARM_RESET (R471, R473): a write of DEV_RST. -/
def execWarmReset (v : Word) (s : State) : Host.Outcome State Fault Refusal :=
  .next (s.hostWrite Reg.devRst fun t => t.devRstWrite v)

/-! ### JTAG (R551) -/

/-- A JTAG instruction selected. -/
def State.jtagSelect (s : State) (i : JtagInstr) : State := { s with power := { s.power with jtag := i } }

/-- JTAG_DEVRST (R470, R551). -/
def execJtagDevrst (s : State) : Host.Outcome State Fault Refusal := .next ((s.jtagSelect .devrst).coldReset 4)

/-- JTAG_EXTEST (R551): the CMOS balls take the boundary-scan register, which changes nothing of the device's own state. -/
def execJtagExtest (s : State) : Host.Outcome State Fault Refusal := .next (s.jtagSelect .extest)

/-- JTAG_SAMPLE_PRELOAD (R551). -/
def execJtagSamplePreload (bsr : List Bool) (s : State) : Host.Outcome State Fault Refusal :=
  .next ({ s.jtagSelect .sample with power := { (s.jtagSelect .sample).power with bsr := bsr } })

/-- JTAG_IDCODE (R551). -/
def execJtagIdcode (s : State) : Host.Outcome State Fault Refusal := .next (s.jtagSelect .idcode)

/-- The instruction that a code of the instruction register selects (R551). -/
def jtagOf (code : Byte) : JtagInstr :=
  if code = 0x00 then .extest else if code = 0x01 then .sample else if code = 0x02 then .idcode
  else if code = 0x3C then .devrst else .bypass

/-- The device identification that IDCODE shifts out (R551). -/
def jtagIdcodeWord : BitVec 32 := 0x124162B3

/-- JTAG_BYPASS (R551): code 0xFF, or one that the table does not list. A listed code selects its own instruction. -/
def execJtagBypass (code : Byte) (s : State) : Host.Outcome State Fault Refusal :=
  .next (if jtagOf code == .bypass then s.jtagSelect .bypass else s)

/-- JTAG_TEST_LOGIC_RESET (R551): IDCODE is selected. -/
def execJtagTestLogicReset (s : State) : Host.Outcome State Fault Refusal := .next (s.jtagSelect .idcode)

/-! ### Course reset by the host (R475) -/

/-- COURSE_RESET_HOLD (R475): a write of DEV_CRS_RST with bit c set beside what it holds. -/
def execCourseResetHold (c : CourseId) (s : State) : Host.Outcome State Fault Refusal :=
  .next (s.hostWrite Reg.devCrsRst fun t => t.devCrsRstWrite (putBit (t.reg Reg.devCrsRst) c true))

/-- COURSE_RESET_RELEASE (R475): a write of DEV_CRS_RST with bit c clear beside what it holds. -/
def execCourseResetRelease (c : CourseId) (s : State) : Host.Outcome State Fault Refusal :=
  .next (s.hostWrite Reg.devCrsRst fun t => t.devCrsRstWrite (putBit (t.reg Reg.devCrsRst) c false))

/-! ### PCIe and the host domain (R470, R472, R478, R502, R503) -/

/-- PERST_ASSERT (R472, R478): a falling edge of PERST_N switches PD11 on, and the host domain is in reset while it stays
low. -/
def execPerstAssert (s : State) : Host.Outcome State Fault Refusal :=
  .next (
    let s1 := { s with power := { s.power with perstLow := true } }
    if s.power.phase == .up then ((s1.setBit Reg.pwrCtrl 11 true).serveDomain).hostReset else s1)

/-- PERST_RELEASE (R478). -/
def execPerstRelease (s : State) : Host.Outcome State Fault Refusal :=
  .next { s with power := { s.power with perstLow := false } }

/-- A reset of the host domain from the PCIe link; nothing where the domain is held in reset or off. -/
def State.linkReset (s : State) : State := if s.hostUp then s.hostReset else s

/-- PCIE_LINK_DOWN (R470, R503). -/
def execPcieLinkDown (s : State) : Host.Outcome State Fault Refusal := .next s.linkReset

/-- PCIE_HOT_RESET (R470, R503). -/
def execPcieHotReset (s : State) : Host.Outcome State Fault Refusal := .next s.linkReset

/-- FUNCTION_LEVEL_RESET (R470, R503). -/
def execFunctionLevelReset (s : State) : Host.Outcome State Fault Refusal := .next s.linkReset

/-- D3HOT_ENTRY (R503, R520): the host domain is reset, and DSTATE shows D3hot. -/
def execD3hotEntry (s : State) : Host.Outcome State Fault Refusal :=
  .next (if s.hostUp then s.hostReset.setFld Reg.devPcieStat 9 2 3 else s)

/-- PCIE_LINK_UP (R502, R520): the link trains, and the function is in D0. -/
def execPcieLinkUp (speed : BitVec 3) (width : BitVec 4) (s : State) : Host.Outcome State Fault Refusal :=
  .next (
    if s.hostUp then
      (((s.setBit Reg.devPcieStat 19 true).setFld Reg.devPcieStat 15 3 speed.toNat).setFld Reg.devPcieStat 11 4
        width.toNat).setFld Reg.devPcieStat 9 2 0
    else s)

/-- BUS_MASTER_DISABLE (R503). -/
def execBusMasterDisable (s : State) : Host.Outcome State Fault Refusal :=
  .next (if s.hostUp then s.setBit Reg.devPcieStat 18 false else s)

/-- BUS_MASTER_ENABLE (R503). -/
def execBusMasterEnable (s : State) : Host.Outcome State Fault Refusal :=
  .next (if s.hostUp then s.setBit Reg.devPcieStat 18 true else s)

/-! ### Crossings (R466, R468) -/

/-- ISLAND_CLOCK_LOSS (R455, R468): the island's crossing is void until the clock returns, with a VOID record; a lost transmit
clock cuts the port's sends off (R101), and a lost PCIe clock discards the host's uncopied requests and a record being written (R434,
R465). Only a reset's void counts in IRQ_VOID_CNT, and one that is void already gives no record (R455). -/
def execIslandClockLoss (x : Fin 50) (s : State) : Host.Outcome State Fault Refusal :=
  .next (
    let i : Fin 56 := ⟨x.val, by omega⟩
    if (s.power.xing.get i).lost then s
    else
      let s1 := s.setVoid i
      let s2 := { s1 with power := { s1.power with xing := vset s1.power.xing i { s1.power.xing.get i with lost := true } } }
      let s3 := if s.isVoid i then s2 else s2.errRecord 15 1 11 x.val 1 0
      if 24 ≤ x.val ∧ x.val < 48 then s3.txLockLost (Fin.ofNat 24 (x.val - 24))
      else if x.val = 49 then (if s3.rBit Reg.dmpStat 18 then s3.recordLost else s3).cutX 49
      else s3)

/-- ISLAND_CLOCK_RETURN (R468): the re-handshake may begin. -/
def execIslandClockReturn (x : Fin 50) (s : State) : Host.Outcome State Fault Refusal :=
  .next (
    let i : Fin 56 := ⟨x.val, by omega⟩
    { s with power := { s.power with xing := vset s.power.xing i { s.power.xing.get i with lost := false } } })

/-- VOID_CLEAR (R466, R468): both sides are out of reset and clocked, and have seen each other's READY; what waited starts to cross. -/
def execVoidClear (x : Fin 56) (s : State) : Host.Outcome State Fault Refusal :=
  .next (
    let v := s.power.xing.get x
    if v.void && !v.lost && s.sidesUp x.val then
      { s with power := { s.power with xing := vset s.power.xing x { v with void := false } } }.startX
    else s)

/-! ### Power domains (R476, R477) -/

/-- DOMAIN_SWITCH_ON (R476): a write of PWR_CTRL with bit d set beside what it holds. -/
def execDomainSwitchOn (d : DomainId) (s : State) : Host.Outcome State Fault Refusal :=
  .next (s.hostWrite Reg.pwrCtrl fun t => t.pwrCtrlWrite (putBit (t.reg Reg.pwrCtrl) d true))

/-- DOMAIN_SWITCH_OFF (R476, R477): a write of PWR_CTRL with bit d clear beside what it holds; bit 0 stays. -/
def execDomainSwitchOff (d : DomainId) (s : State) : Host.Outcome State Fault Refusal :=
  .next (s.hostWrite Reg.pwrCtrl fun t => t.pwrCtrlWrite (putBit (t.reg Reg.pwrCtrl) d false))

/-- DOMAIN_POWER_UP_DONE (R476, R477). -/
def execDomainPowerUpDone (d : DomainId) (s : State) : Host.Outcome State Fault Refusal := .next (s.domainDone d true)

/-- DOMAIN_POWER_DOWN_DONE (R477). -/
def execDomainPowerDownDone (d : DomainId) (s : State) : Host.Outcome State Fault Refusal := .next (s.domainDone d false)

/-! ### Supplies (R479) -/

/-- The readings in the order of the monitors: VDD_TI, VDD_TDC, the five groups of VDD_SB, VDD_SD, VDDA_SD, VDDIO18, VDDIO33. -/
def supplyList (l : SupplyLevels) : List Nat := [l.ti, l.tdc] ++ l.sb.toList ++ [l.sd, l.sda, l.io18, l.io33]

/-- The level below which each falls, in 0.1 mV, and its bit of PWR_SUPPLY (R479, R481). -/
def supplyTable : List (Nat × Nat) :=
  [(7500, 19), (7500, 18), (5700, 8), (5700, 9), (5700, 10), (5700, 11), (5700, 12), (8000, 16), (11400, 15), (16600, 14),
   (31300, 13)]

/-- One monitor's sample: its counts of samples in a row below the level and above it by more than 10 mV, and its OK bit, which
falls after 2 and rises after 100 (R479). -/
def State.monitor (s : State) (i : Fin 11) (v : Nat) : State :=
  let (lim, bit) := supplyTable.getD i.val (0, 19)
  let b := if v < lim then min 2 (s.power.below.get i + 1) else 0
  let a := if lim + 100 < v then min 100 (s.power.above.get i + 1) else 0
  let s1 := { s with power := { s.power with below := vset s.power.below i b, above := vset s.power.above i a } }
  if s1.rBit Reg.pwrSupply bit && b == 2 then (s1.setBit Reg.pwrSupply bit false).orReg Reg.pwrCause 0x40000
  else if !s1.rBit Reg.pwrSupply bit && a == 100 then s1.setBit Reg.pwrSupply bit true
  else s1

/-- SB_OK is the AND of the five groups; its fall sets the cause as well (R479). -/
def State.sbOk (s : State) : State :=
  let ok := s.rFld Reg.pwrSupply 8 5 == 31
  let s1 := s.setBit Reg.pwrSupply 17 ok
  if s.rBit Reg.pwrSupply 17 && !ok then s1.orReg Reg.pwrCause 0x40000 else s1

/-- SUPPLY_SAMPLE (R479): every monitor samples; a fall of TI_OK is a brown-out, which starts a cold reset. -/
def execSupplySample (l : SupplyLevels) (s : State) : Host.Outcome State Fault Refusal :=
  .next (
    let vs := supplyList l
    let s1 := (foldFin 11 (fun i u => u.monitor i (vs.getD i.val 0)) s).sbOk
    if s.rBit Reg.pwrSupply 19 && !s1.rBit Reg.pwrSupply 19 then s1.coldReset 3 else s1)

/-! ### LO_IN (R542, R543) -/

/-- LO_IN_LOSS (R542): the PLL holds its control word and the nut goes on. -/
def execLoInLoss (s : State) : Host.Outcome State Fault Refusal :=
  .next (
    let s1 := { s with power := { s.power with loIn := false } }
    ((s1.setBit Reg.pwrLo 18 true).setBit Reg.pwrLo 19 false).orReg Reg.pwrCause 0x40000)

/-- LO_IN_RETURN (R542): the PLL pulls back in frequency; no tick is lost or gained. -/
def execLoInReturn (s : State) : Host.Outcome State Fault Refusal :=
  .next { s with power := { s.power with loIn := true } }

/-- PLL_RESETTLE (R542): the PLL has settled to LO_IN, and LOCK reads 1. -/
def execPllResettle (s : State) : Host.Outcome State Fault Refusal :=
  .next (if s.power.loIn then s.setBit Reg.pwrLo 19 true else s)

end Sys2Proof.Machine
end

