-- ==== Sys2Proof/Machine/System.lean ====
section
/-! DEFINITION. Linkan-20: counters, tag areas, posts and doorbells (R370, R371, R421, R430, R446). -/

namespace Sys2Proof.Machine

/-- The CRS_PERM bit that lets a user context of course c read a counter (R327, R421). -/
def permBit (c n : Nat) : Nat :=
  if n < 0x100 then (if n / 16 / 4 = c then 19 else 16)
  else if n < 0x800 then 17
  else if n < 0xC00 then (if (n - 0x800) / 16 = c then 18 else 16)
  else 16

/-- RDCNT (R327, R370, R421, R429, R430). -/
def execRdcnt (x : CtxId) (f : Fields) (s : State) : Host.Outcome State Fault Refusal :=
  .next (
    let n := f.imm.toNat
    let c := courseOf x
    s.issue x f 1 (f.w == 4 && chordOk f.dst 4 && cntValid n) fun t =>
      if !(t.ctx x).sys && !t.rBit (Reg.crsPerm c) (permBit c n) then .fault Flt.priv
      else if t.replicaOut c then .hold .fence
      else
        let bank := f.m 0
        let v := if bank then t.cntBank n else t.cntNow n
        let w3 := v.ovf.toNat * 2 ^ 19 + (if bank then 2 ^ 18 + t.rFld Reg.dmpSeq 0 16 else 0)
        .go true (t.onCtx x fun g => g.wr f.dst.toNat (toWords 3 v.val.toNat ++ [BitVec.ofNat 20 w3])))

/-- The tag area that TAGRD and TAGWR name (R370). -/
def tagArg (f : Fields) : Nat := fld f.imm 0 7

/-- TAGRD (R370). -/
def execTagrd (x : CtxId) (f : Fields) (s : State) : Host.Outcome State Fault Refusal :=
  .next (s.issue x f 1 (f.w == 4 && chordOk f.dst 4 && decide (tagArg f ≤ 78)) fun t =>
    .go true (t.setChord x f.dst 4 (t.regN (Reg.tag (tagArg f)) 4)))

/-- TAGWR (R326, R370): all four words on one tick. -/
def execTagwr (x : CtxId) (f : Fields) (s : State) : Host.Outcome State Fault Refusal :=
  .next (s.issue x f 1 (f.w == 4 && chordOk f.srca 4 && decide (tagArg f ≤ 78)) fun t =>
    if !(t.ctx x).sys then .fault Flt.priv
    else .go true (t.setRegN (Reg.tag (tagArg f)) 4 ((t.ctx x).chord f.srca.toNat 4)))

/-- POST (R26, R165, R371); the bits of G(DST) beside the code are a free value (DESIGN CHOICE, notes/assumptions/40.md). -/
def execPost (x : CtxId) (f : Fields) (s : State) : Host.Outcome State Fault Refusal :=
  .next (s.issue x f 1 (f.w == 1 && f.srca.toNat % 16 == 0) fun t =>
    if !(t.ctx x).sys then .fault Flt.priv
    else
      let c := t.ctx x
      let a := f.srca.toNat
      let (code, t1) := t.post (Fin.ofNat 16 (fld f.imm 0 4)) (BitVec.ofNat 80 (c.chord a 4)) (BitVec.ofNat 60 (c.chord (a + 4) 3))
        (c.chord (a + 8) 2) (c.r (a + 10))
      let (v, t2) := t1.free 16
      .go true ((t2.onCtx x fun g => g.wr f.dst.toNat [BitVec.ofNat 20 (code * 65536 + v.toNat)]).setFlags x f fun g =>
        { g with z := code == 0 }))

/-- DBELL (R370, R446). -/
def execDbell (x : CtxId) (f : Fields) (s : State) : Host.Outcome State Fault Refusal :=
  .next (s.issue x f 1 (f.w == 1 && fld f.imm 4 16 == 0) fun t =>
    .go false (t.setBit (Reg.irqDbell (courseOf x)) (fld f.imm 0 4) true))

end Sys2Proof.Machine
end

