-- ==== Sys2Proof/Machine/Dispatch.lean ====
section
/-! DEFINITION. The effect of a command on everything but the queue: one arm for each row of
spec/opcode_table.json, in its order. -/

namespace Sys2Proof.Machine

/-- The effect of one command. -/
def exec (i : Instr) (s : State) : Host.Outcome State Fault Refusal :=
  match i with
  | .powerOn loSel => Sys2Proof.Machine.execPowerOn loSel s
  | .rstNAssert ns => Sys2Proof.Machine.execRstNAssert ns s
  | .rstNRelease loSel => Sys2Proof.Machine.execRstNRelease loSel s
  | .pllLock => Sys2Proof.Machine.execPllLock s
  | .nutStart => Sys2Proof.Machine.execNutStart s
  | .coldBoot flash => Sys2Proof.Machine.execColdBoot flash s
  | .coldResetCmd v => Sys2Proof.Machine.execColdResetCmd v s
  | .warmReset v => Sys2Proof.Machine.execWarmReset v s
  | .warmBoot flash => Sys2Proof.Machine.execWarmBoot flash s
  | .jtagDevrst => Sys2Proof.Machine.execJtagDevrst s
  | .jtagExtest => Sys2Proof.Machine.execJtagExtest s
  | .jtagSamplePreload bsr => Sys2Proof.Machine.execJtagSamplePreload bsr s
  | .jtagIdcode => Sys2Proof.Machine.execJtagIdcode s
  | .jtagBypass code => Sys2Proof.Machine.execJtagBypass code s
  | .courseResetHold c => Sys2Proof.Machine.execCourseResetHold c s
  | .courseResetRelease c => Sys2Proof.Machine.execCourseResetRelease c s
  | .perstAssert => Sys2Proof.Machine.execPerstAssert s
  | .perstRelease => Sys2Proof.Machine.execPerstRelease s
  | .pcieLinkDown => Sys2Proof.Machine.execPcieLinkDown s
  | .pcieHotReset => Sys2Proof.Machine.execPcieHotReset s
  | .functionLevelReset => Sys2Proof.Machine.execFunctionLevelReset s
  | .d3hotEntry => Sys2Proof.Machine.execD3hotEntry s
  | .busMasterDisable => Sys2Proof.Machine.execBusMasterDisable s
  | .voidClear x => Sys2Proof.Machine.execVoidClear x s
  | .islandClockLoss x => Sys2Proof.Machine.execIslandClockLoss x s
  | .domainSwitchOn d => Sys2Proof.Machine.execDomainSwitchOn d s
  | .domainSwitchOff d => Sys2Proof.Machine.execDomainSwitchOff d s
  | .domainPowerUpDone d => Sys2Proof.Machine.execDomainPowerUpDone d s
  | .domainPowerDownDone d => Sys2Proof.Machine.execDomainPowerDownDone d s
  | .supplySample l => Sys2Proof.Machine.execSupplySample l s
  | .tempSensorUpdate n theta => Sys2Proof.Machine.execTempSensorUpdate n theta s
  | .loInLoss => Sys2Proof.Machine.execLoInLoss s
  | .loInReturn => Sys2Proof.Machine.execLoInReturn s
  | .pllResettle => Sys2Proof.Machine.execPllResettle s
  | .checkTick upset => Sys2Proof.Machine.execCheckTick upset s
  | .nutNowRead => Sys2Proof.Machine.execNutNowRead s
  | .speedWindowEnd c mips => Sys2Proof.Machine.execSpeedWindowEnd c mips s
  | .speedCfgWrite c v => Sys2Proof.Machine.execSpeedCfgWrite c v s
  | .tunCommitFull t parentT0 => Sys2Proof.Machine.execTunCommitFull t parentT0 s
  | .tunCommitRate t => Sys2Proof.Machine.execTunCommitRate t s
  | .tunCommitStep t => Sys2Proof.Machine.execTunCommitStep t s
  | .commitTick => Sys2Proof.Machine.execCommitTick s
  | .tunRead t => Sys2Proof.Machine.execTunRead t s
  | .leapArm v => Sys2Proof.Machine.execLeapArm v s
  | .leapCancel v => Sys2Proof.Machine.execLeapCancel v s
  | .leapStep => Sys2Proof.Machine.execLeapStep s
  | .leapSecEnd => Sys2Proof.Machine.execLeapSecEnd s
  | .smearStart => Sys2Proof.Machine.execSmearStart s
  | .smearEnd => Sys2Proof.Machine.execSmearEnd s
  | .calibrationHit l code window => Sys2Proof.Machine.execCalibrationHit l code window s
  | .tableComplete l => Sys2Proof.Machine.execTableComplete l s
  | .driftEval l => Sys2Proof.Machine.execDriftEval l s
  | .staleRise l => Sys2Proof.Machine.execStaleRise l s
  | .tdcCtrlWrite v => Sys2Proof.Machine.execTdcCtrlWrite v s
  | .pcsLockGain p => Sys2Proof.Machine.execPcsLockGain p s
  | .pcsLockLoss p => Sys2Proof.Machine.execPcsLockLoss p s
  | .fretWindowEnd p tx n => Sys2Proof.Machine.execFretWindowEnd p tx n s
  | .rxFrame p frame fcsOk cwBad m => Sys2Proof.Machine.execRxFrame p frame fcsOk cwBad m s
  | .txFillEntry p m => Sys2Proof.Machine.execTxFillEntry p m s
  | .txFrameDone p => Sys2Proof.Machine.execTxFrameDone p s
  | .portReset p v => Sys2Proof.Machine.execPortReset p v s
  | .portResetEnd p v => Sys2Proof.Machine.execPortResetEnd p v s
  | .moduleSample levels => Sys2Proof.Machine.execModuleSample levels s
  | .i2cReadCmd p v => Sys2Proof.Machine.execI2cReadCmd p v s
  | .i2cWriteCmd p v => Sys2Proof.Machine.execI2cWriteCmd p v s
  | .i2cComplete p ack data => Sys2Proof.Machine.execI2cComplete p ack data s
  | .steerCommit c e v => Sys2Proof.Machine.execSteerCommit c e v s
  | .descriptorDispatch x => Sys2Proof.Machine.execDescriptorDispatch x s
  | .pluckStartDispatch x => Sys2Proof.Machine.execPluckStartDispatch x s
  | .hostStart c => Sys2Proof.Machine.execHostStart c s
  | .hostStartDispatch x => Sys2Proof.Machine.execHostStartDispatch x s
  | .hostEvent c => Sys2Proof.Machine.execHostEvent c s
  | .puntCopy c => Sys2Proof.Machine.execPuntCopy c s
  | .txDoorbell t v => Sys2Proof.Machine.execTxDoorbell t v s
  | .txRingFetch t e frame err => Sys2Proof.Machine.execTxRingFetch t e frame err s
  | .txRingComplete t => Sys2Proof.Machine.execTxRingComplete t s
  | .rxRingRecord r rec => Sys2Proof.Machine.execRxRingRecord r rec s
  | .ringEnable r v => Sys2Proof.Machine.execRingEnable r v s
  | .ringDisable r v => Sys2Proof.Machine.execRingDisable r v s
  | .launchPluckFire p => Sys2Proof.Machine.execLaunchPluckFire p s
  | .launchDepart p slot => Sys2Proof.Machine.execLaunchDepart p slot s
  | .pickEdge p rising codeA codeB => Sys2Proof.Machine.execPickEdge p rising codeA codeB s
  | .pickCtrlWrite p v => Sys2Proof.Machine.execPickCtrlWrite p v s
  | .pickLosTimeout p => Sys2Proof.Machine.execPickLosTimeout p s
  | .pickQpop p => Sys2Proof.Machine.execPickQpop p s
  | .pickDrainWrite p base v => Sys2Proof.Machine.execPickDrainWrite p base v s
  | .pickDrainEntry p => Sys2Proof.Machine.execPickDrainEntry p s
  | .pickDrainPoll p => Sys2Proof.Machine.execPickDrainPoll p s
  | .intervalPair p => Sys2Proof.Machine.execIntervalPair p s
  | .startUnused p => Sys2Proof.Machine.execStartUnused p s
  | .gateAutoClose u => Sys2Proof.Machine.execGateAutoClose u s
  | .gateLimitClose u => Sys2Proof.Machine.execGateLimitClose u s
  | .gateResult u => Sys2Proof.Machine.execGateResult u s
  | .hc0SelWrite v => Sys2Proof.Machine.execHc0SelWrite v s
  | .touchSlot pad crossing => Sys2Proof.Machine.execTouchSlot pad crossing s
  | .fmuEdge u => Sys2Proof.Machine.execFmuEdge u s
  | .fmuLosTimeout u => Sys2Proof.Machine.execFmuLosTimeout u s
  | .pluckArm g v => Sys2Proof.Machine.execPluckArm g v s
  | .pluckDisarm g => Sys2Proof.Machine.execPluckDisarm g s
  | .edgePluckArm o v => Sys2Proof.Machine.execEdgePluckArm o v s
  | .edgePluckDisarm o => Sys2Proof.Machine.execEdgePluckDisarm o s
  | .edgeCalStart o => Sys2Proof.Machine.execEdgeCalStart o s
  | .pluckArmTick a => Sys2Proof.Machine.execPluckArmTick a s
  | .pluckFire => Sys2Proof.Machine.execPluckFire s
  | .edgePluckFire o hc0 => Sys2Proof.Machine.execEdgePluckFire o hc0 s
  | .edgeTrailing o hc0 => Sys2Proof.Machine.execEdgeTrailing o hc0 s
  | .edgeEnWrite o v => Sys2Proof.Machine.execEdgeEnWrite o v s
  | .edgeCalComplete o => Sys2Proof.Machine.execEdgeCalComplete o s
  | .edgeCalTimeout o => Sys2Proof.Machine.execEdgeCalTimeout o s
  | .pluckReconvert a => Sys2Proof.Machine.execPluckReconvert a s
  | .sampleTimeout y => Sys2Proof.Machine.execSampleTimeout y s
  | .holdoffExpiry y => Sys2Proof.Machine.execHoldoffExpiry y s
  | .qualExpiry y => Sys2Proof.Machine.execQualExpiry y s
  | .wtrExpiry y => Sys2Proof.Machine.execWtrExpiry y s
  | .voteTick => Sys2Proof.Machine.execVoteTick s
  | .xchkEnd y => Sys2Proof.Machine.execXchkEnd y s
  | .rsCfgWrite y v => Sys2Proof.Machine.execRsCfgWrite y v s
  | .rsClear y => Sys2Proof.Machine.execRsClear y s
  | .selCtrlWrite v => Sys2Proof.Machine.execSelCtrlWrite v s
  | .dpllUpdate => Sys2Proof.Machine.execDpllUpdate s
  | .bridgeSecondTick => Sys2Proof.Machine.execBridgeSecondTick s
  | .stepGo => Sys2Proof.Machine.execStepGo s
  | .stepNostep => Sys2Proof.Machine.execStepNostep s
  | .stepSquelchStart => Sys2Proof.Machine.execStepSquelchStart s
  | .stepCommit => Sys2Proof.Machine.execStepCommit s
  | .stepSeqEnd => Sys2Proof.Machine.execStepSeqEnd s
  | .unseqSquelchEnd o => Sys2Proof.Machine.execUnseqSquelchEnd o s
  | .foutCommit f div v => Sys2Proof.Machine.execFoutCommit f div v s
  | .foutPllLock f => Sys2Proof.Machine.execFoutPllLock f s
  | .synceCtrlWrite v => Sys2Proof.Machine.execSynceCtrlWrite v s
  | .irigCfLatch => Sys2Proof.Machine.execIrigCfLatch s
  | .todRecordStart u => Sys2Proof.Machine.execTodRecordStart u s
  | .harpClkWindow n => Sys2Proof.Machine.execHarpClkWindow n s
  | .harpClkTimeout => Sys2Proof.Machine.execHarpClkTimeout s
  | .bandStatWindow upper runs si => Sys2Proof.Machine.execBandStatWindow upper runs si s
  | .harpMarker => Sys2Proof.Machine.execHarpMarker s
  | .mapFit => Sys2Proof.Machine.execMapFit s
  | .harpSiRead off => Sys2Proof.Machine.execHarpSiRead off s
  | .harpCtrlWrite v => Sys2Proof.Machine.execHarpCtrlWrite v s
  | .searchCommit v => Sys2Proof.Machine.execSearchCommit v s
  | .searchAbort => Sys2Proof.Machine.execSearchAbort s
  | .searchFlush => Sys2Proof.Machine.execSearchFlush s
  | .strumPassEnd r => Sys2Proof.Machine.execStrumPassEnd r s
  | .smallPassEnd rs => Sys2Proof.Machine.execSmallPassEnd rs s
  | .channelDump h d => Sys2Proof.Machine.execChannelDump h d s
  | .pullinTimeout h => Sys2Proof.Machine.execPullinTimeout h s
  | .pllTimeout h => Sys2Proof.Machine.execPllTimeout h s
  | .lolTimeout h => Sys2Proof.Machine.execLolTimeout h s
  | .reacqTimeout h => Sys2Proof.Machine.execReacqTimeout h s
  | .reacqQueue h => Sys2Proof.Machine.execReacqQueue h s
  | .channelStop h => Sys2Proof.Machine.execChannelStop h s
  | .mpEstimate h fit => Sys2Proof.Machine.execMpEstimate h fit s
  | .measRecordWrite rest => Sys2Proof.Machine.execMeasRecordWrite rest s
  | .navEntry h item => Sys2Proof.Machine.execNavEntry h item s
  | .nop x f => Sys2Proof.Machine.execNop x f s
  | .br x f => Sys2Proof.Machine.execBr x f s
  | .call x f => Sys2Proof.Machine.execCall x f s
  | .ret x f => Sys2Proof.Machine.execRet x f s
  | .yield x f => Sys2Proof.Machine.execYield x f s
  | .halt x f => Sys2Proof.Machine.execHalt x f s
  | .wait x f => Sys2Proof.Machine.execWait x f s
  | .eventWake x => Sys2Proof.Machine.execEventWake x s
  | .waitTimeout x => Sys2Proof.Machine.execWaitTimeout x s
  | .armpArm x f => Sys2Proof.Machine.execArmpArm x f s
  | .armpDisarm x f => Sys2Proof.Machine.execArmpDisarm x f s
  | .add x f => Sys2Proof.Machine.execAdd x f s
  | .adc x f => Sys2Proof.Machine.execAdc x f s
  | .sub x f => Sys2Proof.Machine.execSub x f s
  | .sbc x f => Sys2Proof.Machine.execSbc x f s
  | .cmp x f => Sys2Proof.Machine.execCmp x f s
  | .neg x f => Sys2Proof.Machine.execNeg x f s
  | .and x f => Sys2Proof.Machine.execAnd x f s
  | .or x f => Sys2Proof.Machine.execOr x f s
  | .xor x f => Sys2Proof.Machine.execXor x f s
  | .bic x f => Sys2Proof.Machine.execBic x f s
  | .tst x f => Sys2Proof.Machine.execTst x f s
  | .mov x f => Sys2Proof.Machine.execMov x f s
  | .setw x f => Sys2Proof.Machine.execSetw x f s
  | .shl x f => Sys2Proof.Machine.execShl x f s
  | .shr x f => Sys2Proof.Machine.execShr x f s
  | .sar x f => Sys2Proof.Machine.execSar x f s
  | .rol x f => Sys2Proof.Machine.execRol x f s
  | .mull x f => Sys2Proof.Machine.execMull x f s
  | .mulh x f => Sys2Proof.Machine.execMulh x f s
  | .mulhs x f => Sys2Proof.Machine.execMulhs x f s
  | .divu x f => Sys2Proof.Machine.execDivu x f s
  | .remu x f => Sys2Proof.Machine.execRemu x f s
  | .clz x f => Sys2Proof.Machine.execClz x f s
  | .stm x f => Sys2Proof.Machine.execStm x f s
  | .fadd x f => Sys2Proof.Machine.execFadd x f s
  | .fsub x f => Sys2Proof.Machine.execFsub x f s
  | .fmul x f => Sys2Proof.Machine.execFmul x f s
  | .fdiv x f => Sys2Proof.Machine.execFdiv x f s
  | .fsqrt x f => Sys2Proof.Machine.execFsqrt x f s
  | .fcmp x f => Sys2Proof.Machine.execFcmp x f s
  | .fabs x f => Sys2Proof.Machine.execFabs x f s
  | .fneg x f => Sys2Proof.Machine.execFneg x f s
  | .fcvti x f => Sys2Proof.Machine.execFcvti x f s
  | .fcvtf x f => Sys2Proof.Machine.execFcvtf x f s
  | .fscl x f => Sys2Proof.Machine.execFscl x f s
  | .rdnut x f => Sys2Proof.Machine.execRdnut x f s
  | .n2t x f => Sys2Proof.Machine.execN2t x f s
  | .t2n x f => Sys2Proof.Machine.execT2n x f s
  | .sdiff x f => Sys2Proof.Machine.execSdiff x f s
  | .sext x f => Sys2Proof.Machine.execSext x f s
  | .ntpf x f => Sys2Proof.Machine.execNtpf x f s
  | .tcmtFull x f => Sys2Proof.Machine.execTcmtFull x f s
  | .tcmtRate x f => Sys2Proof.Machine.execTcmtRate x f s
  | .tcmtStep x f => Sys2Proof.Machine.execTcmtStep x f s
  | .setpw x f => Sys2Proof.Machine.execSetpw x f s
  | .ldf x f => Sys2Proof.Machine.execLdf x f s
  | .stf x f => Sys2Proof.Machine.execStf x f s
  | .cksum x f => Sys2Proof.Machine.execCksum x f s
  | .sendPlain x f => Sys2Proof.Machine.execSendPlain x f s
  | .sendOneStep x f => Sys2Proof.Machine.execSendOneStep x f s
  | .sendLaunch x f => Sys2Proof.Machine.execSendLaunch x f s
  | .punt x f => Sys2Proof.Machine.execPunt x f s
  | .drop x f => Sys2Proof.Machine.execDrop x f s
  | .tlkp x f => Sys2Proof.Machine.execTlkp x f s
  | .tins x f => Sys2Proof.Machine.execTins x f s
  | .tupd x f => Sys2Proof.Machine.execTupd x f s
  | .tdel x f => Sys2Proof.Machine.execTdel x f s
  | .tage x f => Sys2Proof.Machine.execTage x f s
  | .sivs x f => Sys2Proof.Machine.execSivs x f s
  | .sivo x f => Sys2Proof.Machine.execSivo x f s
  | .cmac x f => Sys2Proof.Machine.execCmac x f s
  | .hmac x f => Sys2Proof.Machine.execHmac x f s
  | .laneJobStart c => Sys2Proof.Machine.execLaneJobStart c s
  | .cryptoComplete l => Sys2Proof.Machine.execCryptoComplete l s
  | .sendComplete c => Sys2Proof.Machine.execSendComplete c s
  | .stallResultReturn x => Sys2Proof.Machine.execStallResultReturn x s
  | .rdcnt x f => Sys2Proof.Machine.execRdcnt x f s
  | .tagrd x f => Sys2Proof.Machine.execTagrd x f s
  | .tagwr x f => Sys2Proof.Machine.execTagwr x f s
  | .post x f => Sys2Proof.Machine.execPost x f s
  | .dbell x f => Sys2Proof.Machine.execDbell x f s
  | .runawayFault x => Sys2Proof.Machine.execRunawayFault x s
  | .watchdogExpiry y => Sys2Proof.Machine.execWatchdogExpiry y s
  | .hardwareFaultDetect y state mem addr => Sys2Proof.Machine.execHardwareFaultDetect y state mem addr s
  | .stringRestart y => Sys2Proof.Machine.execStringRestart y s
  | .contextRestart x => Sys2Proof.Machine.execContextRestart x s
  | .courseDrain c => Sys2Proof.Machine.execCourseDrain c s
  | .courseDrained c => Sys2Proof.Machine.execCourseDrained c s
  | .drainTimeout c => Sys2Proof.Machine.execDrainTimeout c s
  | .courseGo c => Sys2Proof.Machine.execCourseGo c s
  | .laneFault l round => Sys2Proof.Machine.execLaneFault l round s
  | .laneRestart c v => Sys2Proof.Machine.execLaneRestart c v s
  | .scrubError m unit addr => Sys2Proof.Machine.execScrubError m unit addr s
  | .counterSelectWrite k v => Sys2Proof.Machine.execCounterSelectWrite k v s
  | .strCounterClr y => Sys2Proof.Machine.execStrCounterClr y s
  | .portCounterClr p => Sys2Proof.Machine.execPortCounterClr p s
  | .bwLenWrite p v => Sys2Proof.Machine.execBwLenWrite p v s
  | .bwWindowEnd p => Sys2Proof.Machine.execBwWindowEnd p s
  | .dumpRecordWrite => Sys2Proof.Machine.execDumpRecordWrite s
  | .legWindowRead => Sys2Proof.Machine.execLegWindowRead s
  | .legVal2Read => Sys2Proof.Machine.execLegVal2Read s
  | .courseLoad v flash => Sys2Proof.Machine.execCourseLoad v flash s
  | .spiCommand v => Sys2Proof.Machine.execSpiCommand v s
  | .spiCommandDone data => Sys2Proof.Machine.execSpiCommandDone data s
  | .keyCmdEmpty slot => Sys2Proof.Machine.execKeyCmdEmpty slot s
  | .keyCmdCmac128 slot => Sys2Proof.Machine.execKeyCmdCmac128 slot s
  | .keyCmdCmac256 slot => Sys2Proof.Machine.execKeyCmdCmac256 slot s
  | .keyCmdSiv slot => Sys2Proof.Machine.execKeyCmdSiv slot s
  | .keyCmdHmac slot len => Sys2Proof.Machine.execKeyCmdHmac slot len s
  | .multiwordLatch addr => Sys2Proof.Machine.execMultiwordLatch addr s
  | .multiwordCommit addr v => Sys2Proof.Machine.execMultiwordCommit addr v s
  | .registerWrite addr v full => Sys2Proof.Machine.execRegisterWrite addr v full s
  | .bar2Write addr v be => Sys2Proof.Machine.execBar2Write addr v be s
  | .keySample levels => Sys2Proof.Machine.execKeySample levels s
  | .keyLongExpiry k => Sys2Proof.Machine.execKeyLongExpiry k s
  | .antSample opn short => Sys2Proof.Machine.execAntSample opn short s
  | .panelEvtPop => Sys2Proof.Machine.execPanelEvtPop s
  | .courseLoadDone => Sys2Proof.Machine.execCourseLoadDone s
  | .pcieLinkUp speed width => Sys2Proof.Machine.execPcieLinkUp speed width s
  | .anDone p => Sys2Proof.Machine.execAnDone p s
  | .hiBerChange p high => Sys2Proof.Machine.execHiBerChange p high s
  | .linkFaultSignal p fault => Sys2Proof.Machine.execLinkFaultSignal p fault s
  | .busMasterEnable => Sys2Proof.Machine.execBusMasterEnable s
  | .jtagTestLogicReset => Sys2Proof.Machine.execJtagTestLogicReset s
  | .irigElementEdge o hc0 => Sys2Proof.Machine.execIrigElementEdge o hc0 s
  | .islandClockReturn x => Sys2Proof.Machine.execIslandClockReturn x s
  | .synceSynthLock => Sys2Proof.Machine.execSynceSynthLock s

end Sys2Proof.Machine
end

