-- ==== Sys2Proof/Machine/Tick.lean ====
section
/-! DEFINITION. The end of a tick: what its events leave to be settled once they have all come (R172, R204). -/

namespace Sys2Proof.Machine

/-- The end of a tick for ports, lines and picks: departures are converted (R97), HC0 stamps its captures (R75), hits get their verdict
(R69), prescalers restart (R110), and DRAIN_STALL is shown (R118). -/
def State.inputsEndTick (s : State) : State :=
  (foldFin 24 (fun p u => u.convertFills p) s).hc0Ends.settleHits.pickRestarts.drainStalls

/-- The end of a tick: its inputs, slot timers and selection (R172), the FOUT clocks (R204), the epoch that fired (R250), and the error records of the tick
(R449). -/
def State.endTick (s : State) : State := s.inputsEndTick.bridgeEndTick.foutTicks.harpTick.flushErrs

end Sys2Proof.Machine
end

