-- ==== Sys2Proof/Machine/Step.lean ====
section
/-! DEFINITION. One step: the command at the front of the queue, or one tick of the time island where none waits. -/

namespace Sys2Proof.Machine

/-- One tick passes: what is settled at the end of a tick (R172), then the counters count it, the nut advances, and writes held by an
ended step sequence are applied (R37, R200, R422 to R424, R428, R431). -/
def State.tickAll (s : State) : State := if s.nutRun then s.endTick.countTick.cntEndTick.tick.releaseHeld else s

/-- One step. On an empty queue one tick of 2.5 ns passes (DESIGN CHOICE, notes/assumptions/1.md). -/
def step (s : State) : Host.Outcome State Fault Refusal :=
  match s.pending with
  | [] => .next s.tickAll
  | c :: rest => exec c { s with pending := rest }

/-- The state with the command a table word spells put at the front of its queue; unchanged where it spells none. -/
def State.withFetchWord (s : State) (nbits w : Nat) : State :=
  match decodeTableWord nbits w with
  | some c => { s with pending := c :: s.pending }
  | none => s

end Sys2Proof.Machine
end

