-- ==== Sys2Proof/WellFormed.lean ====
section
/-! DEFINITION. Which commands can reach the device: what the operands of a row must satisfy beside their types. The meanings do
not rely on it; an access to an address that is no slot is refused by them. -/

namespace Sys2Proof

/-- Bit `n` of a word. -/
def wordBit (v : Word) (n : Nat) : Bool := v.getLsbD n

/-- A byte address of a BAR0 slot (R504). -/
def slotAddr (a : Nat) : Bool := a % 4 == 0 && decide (a < 0x1000000)

/-- A byte address of a BAR2 DW (R510). -/
def windowAddr (a : Nat) : Bool := a % 4 == 0 && decide (a < 0x4000000)

/-- The JTAG codes that R551 lists beside BYPASS. -/
def jtagListed (code : Byte) : Bool := code == 0x00 || code == 0x01 || code == 0x02 || code == 0x3C

/-- What a command's operands satisfy: a write row carries the bit that names it, an address names a slot, a Linkan row carries the
MODE bits that name it (R344, R354, R357), a list has the length its rule gives. -/
def Instr.wf : Instr → Bool
  | .jtagBypass code => !jtagListed code
  | .coldResetCmd v => wordBit v 18
  | .warmReset v => wordBit v 19 && !wordBit v 18
  | .domainSwitchOff d => d != 0
  | .leapArm v => wordBit v 19
  | .leapCancel v => !wordBit v 19
  | .rxFrame _ frame _ _ _ => !frame.isEmpty
  | .portResetEnd _ v => !wordBit v 18
  | .i2cReadCmd _ v => wordBit v 19 && wordBit v 18
  | .i2cWriteCmd _ v => wordBit v 19 && !wordBit v 18
  | .txRingFetch _ e frame err => err || frame.length == e.len.toNat
  | .ringEnable _ v => wordBit v 19
  | .ringDisable _ v => !wordBit v 19
  | .pluckArm _ v => wordBit v 19
  | .edgePluckArm _ v => wordBit v 19
  | .armpArm _ f => !f.mode.getLsbD 0
  | .armpDisarm _ f => f.mode.getLsbD 0
  | .tcmtFull _ f => f.mode &&& 3 == 0
  | .tcmtRate _ f => f.mode &&& 3 == 1
  | .tcmtStep _ f => f.mode &&& 3 == 2
  | .sendPlain _ f => f.mode &&& 3 == 0
  | .sendOneStep _ f => f.mode &&& 3 == 1
  | .sendLaunch _ f => f.mode &&& 3 == 2
  | .courseLoad v _ => wordBit v 19
  | .spiCommand v => wordBit v 19
  | .spiCommandDone data => decide (data.length ≤ 256)
  | .multiwordLatch a => slotAddr a
  | .multiwordCommit a _ => slotAddr a
  | .registerWrite a _ _ => slotAddr a
  | .bar2Write a _ _ => windowAddr a
  | .strumPassEnd ss => decide (ss.length ≤ 8192)
  | .smallPassEnd ws => decide (ws.length ≤ 32) && ws.all fun w => decide (w.length ≤ 256)
  | .measRecordWrite rest => decide (rest.length ≤ 2016)
  | _ => true

end Sys2Proof
end

