-- ==== Sys2Proof/Safety.lean ====
section
/-! DEFINITION. What a sound state is, in the terms claims use: the sparse maps and memories in canonical form, the hard-wired bits
as the spec says they read, and every waiting command well formed. -/

namespace Sys2Proof.Machine

/-- The register map lists no word twice, in rising order, and none at its cold-reset value (R14). -/
def State.regsWf (s : State) : Bool := Sparse.wf (fun a => some (regReset a)) s.regs

/-- The memories that the device holds are in canonical form. -/
def State.memsWf (s : State) : Bool :=
  s.client.wf && s.harp.mem.wf && s.hostMem.wf &&
    s.courses.toList.all fun c => c.prog.wf && c.data.wf && c.buf.wf

/-- PWR_CTRL.ON[0] reads 1 (R481). -/
def State.pd0On (s : State) : Bool := s.rBit Reg.pwrCtrl 0

/-- A sound state. -/
def State.sound (s : State) : Bool := s.regsWf && s.memsWf && s.pd0On && s.pending.all Instr.wf

/-- A step was safe: it answered a next state. -/
def ranSafely (o : Host.Outcome State Fault Refusal) : Bool :=
  match o with
  | .next _ => true
  | _ => false

end Sys2Proof.Machine
end

