-- ==== Sys2Proof/Certificates/Slice0/Obligations.lean ====
section
/-! DEFINITION. The statements for the provers: what each command does, on which states, and what every step keeps. -/

namespace Sys2Proof.Machine

/-- Every register word outside the addresses of `l` reads the same in `t` as in `s`. -/
def State.regsBut (s t : State) (l : List Nat) : Prop := ∀ a, a ∉ l → t.reg a = s.reg a

/-- From `s` to `t` only register words change, and of them only those at the addresses of `l`; beside them the model's note of the
bits that hardware set on this tick (R13) may change. -/
def State.onlyRegs (s t : State) (l : List Nat) : Prop := t = { s with regs := t.regs, setNow := t.setNow } ∧ s.regsBut t l

/-- The addresses of a register of `k` words from `a` on. -/
def wordsAt (a k : Nat) : List Nat := (List.range k).map fun i => a + 4 * i

/-- The words of the read shadow at `a` are the value `v` of `k` words (R506). -/
def State.shadows (s : State) (a k v : Nat) : Prop :=
  ∀ i, i < k → (Sparse.find s.rdShadow (a + 4 * i)).getD 0 = BitVec.ofNat 20 (v >>> (20 * i))

/-- The host memory from address `a` on holds the bytes `bs`. -/
def State.hostHolds (s : State) (a : Nat) (bs : List Byte) : Prop :=
  ∀ i, i < bs.length → s.hostMem.read? (a + i) = bs[i]?

end Sys2Proof.Machine

open Sys2Proof Sys2Proof.Machine

/-! ### Every command and every step -/

/-- A step takes the command at the front of the queue: it is `exec` of that command on the state with the queue's rest. -/
def Obligations.StepRunsFront : Prop :=
  ∀ (s : State) (c : Instr) (rest : List Instr), s.pending = c :: rest → step s = exec c { s with pending := rest }

/-- An empty queue (the model's choice, notes/assumptions/1.md): one tick passes. The nut adds 163,840 where it runs (R37), the
counters that count it follow, and a block whose nut does not run keeps its whole state. -/
def Obligations.IdleTick : Prop :=
  ∀ s : State, s.pending = [] →
    (s.nutRun = false → step s = .next s) ∧
    (s.nutRun = true → ∃ t, step s = .next t ∧ t.nut = s.nut + 163840 ∧ t.nutRun = true ∧ t.pending = [] ∧
      t.power = s.power ∧ t.replicas = s.replicas)

/-- R37, R470, R472, R473, R481: the machine right after reset. The nut is 0 and stands, every domain is held until the PLL locks, each register
reads its cold-reset value, and nothing waits.
Where the spec leaves a reading open it is the model's: notes/assumptions, entry 7. -/
def Obligations.ResetState : Prop :=
  State.reset.nut = 0 ∧ State.reset.nutRun = false ∧ State.reset.power.phase = .held ∧
  (∀ a, State.reset.reg a = regReset a) ∧ State.reset.reg Reg.pwrCtrl = 0x801 ∧ State.reset.reg Reg.pwrStat = 0x801 ∧
  State.reset.reg (Reg.tunStatus 0) = 0x80000 ∧ State.reset.reg (Reg.tunCtrl 0) = 0x80000 ∧ State.reset.reg (Reg.tunCtrl 1) = 0 ∧
  State.reset.reg (Reg.tunSmearLen 0) = 0x15180 ∧ State.reset.reg Reg.pwrTherm = 0x6973 ∧
  State.reset.keys = [] ∧ State.reset.counters = [] ∧ State.reset.pending = []

/-- No command stops the machine but one at an address that is no slot: every command answers a next state, or the refusal of an
address that no TLP carries (R504, R510). -/
def Obligations.EveryCommandAnswers : Prop :=
  ∀ (c : Instr) (s : State),
    (∃ t, exec c s = .next t) ∨
      (exec c s = .refused .illFormed ∧ match c with
        | .multiwordLatch a => slotAddr a = false
        | .multiwordCommit a _ => slotAddr a = false
        | .registerWrite a _ _ => slotAddr a = false
        | .bar2Write a _ _ => windowAddr a = false
        | _ => False)

/-- The invariant of every step: the nut runs exactly in the phase that follows NUT_START (R37, R473), and bits [14:0] of the nut
are 0 (R38). -/
def Sys2Proof.Machine.State.nutInv (s : State) : Prop :=
  (s.nutRun = true ↔ s.power.phase = .up) ∧ s.nut.toNat % 2 ^ 15 = 0

/-- The invariant holds after reset. -/
def Obligations.NutInvReset : Prop := State.reset.nutInv

/-- R37, R38: every step keeps the invariant, whatever command it runs. -/
def Obligations.NutInvKept : Prop := ∀ s t : State, s.nutInv → step s = .next t → t.nutInv

/-- R37: no command writes, steps or steers the nut. Where a command ends with another nut than it found, it started a cold reset,
and the nut is 0 and stands. The clocks of waiting commands stay as they are: every command leaves the queue's rest. -/
def Obligations.NutUnwritten : Prop :=
  ∀ (c : Instr) (s t : State), exec c s = .next t →
    t.pending = s.pending ∧ (t.nut = s.nut ∨ t.nut = 0 ∧ t.nutRun = false ∧ t.power.phase = .held)

/-! ### The nut and the tunings -/

/-- R40, R50, R56: a host read of NUT_NOW0 captures the nut on its tick and one of TUN_READ0 the reading of an enabled tuning with
the nut of the same tick, 0 where it is disabled; each value is latched whole for the reads of its other words. -/
def Obligations.CapturesOfTime : Prop :=
  (∀ s : State, s.hostReads Reg.nutNow = true → ∃ t, exec .nutNowRead s = .next t ∧
    t.reg80 Reg.nutNow = s.nut ∧ t.shadows Reg.nutNow 4 s.nut.toNat ∧
    t = { s with regs := t.regs, setNow := t.setNow, rdShadow := t.rdShadow } ∧ s.regsBut t (wordsAt Reg.nutNow 4)) ∧
  (∀ (s : State) (k : TunId), s.hostReads (Reg.tunRead k) = true → ∃ t, exec (.tunRead k) s = .next t ∧
    t.reg100 (Reg.tunRead k) = (if s.rBit (Reg.tunCtrl k) 19 then s.reading k s.nut else 0) ∧
    t.reg80 (Reg.tunReadNut k) = s.nut ∧ t.shadows (Reg.tunRead k) 5 (t.reg100 (Reg.tunRead k)).toNat ∧
    t = { s with regs := t.regs, setNow := t.setNow, rdShadow := t.rdShadow } ∧
    s.regsBut t (wordsAt (Reg.tunRead k) 5 ++ wordsAt (Reg.tunReadNut k) 4))

/-- The commit that a host's request stages (R51). -/
def Sys2Proof.Machine.State.hostRequest (s : State) (k : TunId) (kind : BitVec 2) (parent : Bool) : Commit :=
  { kind := kind, seq := false, parent := parent, nut := s.reg80 (Reg.tunNewNut k), val := s.reg100 (Reg.tunNewVal k),
    rate := s.reg40 (Reg.tunNewRate k) }

/-- R52, R466: a request copies the staged values. It crosses with PENDING set; while one crosses, or while the crossing of the host's
writes is void, it waits with BUSY set, and replaces what waits there. -/
def Sys2Proof.Machine.State.requested (s t : State) (k : TunId) (c : Commit) : Prop :=
  ((s.tunings.get k).host = none → s.isVoid 49 = false → (t.tunings.get k).host = some c ∧
    (t.tunings.get k).hostNext = none ∧ t.rBit (Reg.tunStatus k) 17 = true ∧ t.rBit (Reg.tunStatus k) 16 = false) ∧
  ((s.tunings.get k).host ≠ none ∨ s.isVoid 49 = true → (t.tunings.get k).hostNext = some c ∧
    (t.tunings.get k).host = (s.tunings.get k).host ∧ t.rBit (Reg.tunStatus k) 16 = true) ∧
  (∀ j, j ≠ k → t.tunings.get j = s.tunings.get j) ∧ (t.tunings.get k).progs = (s.tunings.get k).progs ∧
  t = { s with regs := t.regs, setNow := t.setNow, tunings := t.tunings, flight := t.flight } ∧ s.regsBut t [Reg.tunStatus k]

/-- R51, R52: the host's FULL, RATE and STEP requests, for every tuning, where no step sequence holds those to T0 (R200). -/
def Sys2Proof.Machine.TuningRequestsRule : Prop :=
  ∀ (s : State) (k : TunId), s.hostOpen (Reg.tunCommit k) = true → (k = 0 → s.holding = false) →
    (∀ p, ∃ t, exec (.tunCommitFull k p) s = .next t ∧ s.requested t k (s.hostRequest k 0 p)) ∧
    (∃ t, exec (.tunCommitRate k) s = .next t ∧ s.requested t k (s.hostRequest k 1 false)) ∧
    (∃ t, exec (.tunCommitStep k) s = .next t ∧ s.requested t k (s.hostRequest k 2 false))

/-- R51 to R53, R55: the commit tick of the only crossing request, on a tick that no other commit to its tuning takes. -/
def Sys2Proof.Machine.CommitTickEffectRule : Prop :=
  ∀ (s : State) (k : TunId) (c : Commit), (s.tunings.get k).host = some c → (s.tunings.get k).hostNext = none → c.seq = false →
    (∀ j, j ≠ k → (s.tunings.get j).host = none ∧ (s.tunings.get j).progs = []) → commitBad s k c = false →
    s.tickTaken k = false → s.rBit Reg.brgLoopStat 16 = false →
    ∃ t, exec .commitTick s = .next t ∧
      (t.tunings.get k).host = none ∧ t.rBit (Reg.tunStatus k) 17 = false ∧
      t = { s with regs := t.regs, setNow := t.setNow, tunings := t.tunings, plucks := t.plucks, edges := t.edges, reconvAt := t.reconvAt,
                   bridge := t.bridge, tods := t.tods, flight := t.flight } ∧
      s.regsBut t ([Reg.tunStatus k, Reg.plkGstat, Reg.brgLcause] ++ wordsAt (Reg.tunAncNut k) 4 ++ wordsAt (Reg.tunAncVal k) 5 ++
        wordsAt (Reg.tunAncRate k) 2 ++ (List.range 256).map Reg.plkStat ++ (List.range 8).map Reg.plkEdgeStat) ∧
      t.rFld (Reg.tunStatus k) 0 8 = (s.rFld (Reg.tunStatus k) 0 8 + 1) % 256 ∧
      (c.kind = 0 → t.reg80 (Reg.tunAncNut k) = c.nut ∧ t.reg100 (Reg.tunAncVal k) = c.val ∧
        t.reg40 (Reg.tunAncRate k) = c.rate ∧ t.rBit (Reg.tunStatus k) 18 = c.parent ∧ t.rBit (Reg.tunStatus k) 19 = false) ∧
      (c.kind = 1 → t.reg80 (Reg.tunAncNut k) = s.nut ∧ t.reg40 (Reg.tunAncRate k) = c.rate ∧
        t.reading k s.nut = s.reading k s.nut ∧ t.rBit (Reg.tunStatus k) 19 = s.rBit (Reg.tunStatus k) 19) ∧
      (c.kind = 2 → t.reg80 (Reg.tunAncNut k) = s.nut ∧ t.reg40 (Reg.tunAncRate k) = s.reg40 (Reg.tunAncRate k) ∧
        t.reading k s.nut = ftAdd (s.reading k s.nut) c.val ∧ t.rBit (Reg.tunStatus k) 19 = false)


/-- R51, R52, R54, R55: the host's requests to a tuning, and the commit tick of one.
Where the spec leaves a reading open it is the model's: notes/assumptions, entries 107, 163. -/
def Obligations.TuningCommits : Prop := Sys2Proof.Machine.TuningRequestsRule ∧ Sys2Proof.Machine.CommitTickEffectRule

/-! ### Conversions and leap seconds -/

/-- R49: a nut value converted to an enabled tuning and back is the same nut value. A child of T0 (R47) takes the premise that the
nut value and both its origins lie within one span of the 80-bit nut, so that the three signed differences agree. -/
def Obligations.NutRoundTrip : Prop :=
  ∀ (s : State) (k : TunId) (n : Nut), s.tunOn k = true →
    (s.isChild k = true →
      (n - s.reg80 (Reg.tunAncNut k)).toInt =
        (n - s.reg80 (Reg.tunAncNut 0)).toInt + (s.reg80 (Reg.tunAncNut 0) - s.reg80 (Reg.tunAncNut k)).toInt) →
    s.tunToNut k (s.nutToTun k n) = n

/-- The conditions under which R61 refuses an arm, on the state before it. -/
def Sys2Proof.Machine.State.leapArmRefused (s : State) : Prop :=
  let w := s.rFld (Reg.tunSmearLen 0) 0 17
  w % 2 = 1 ∨ w < 200 ∨ 86400 < w ∨ s.leapAt ≤ s.t0Units + secUnits ∨
    ((∃ k : TunId, k ≠ 0 ∧ s.rBit (Reg.tunCtrl k) 19 = true ∧ s.rBit (Reg.tunStatus k) 18 = true ∧
        s.rFld (Reg.tunCtrl k) 17 2 = 2) ∧ s.leapAt - s.smearHalf ≤ s.t0Units) ∨
    s.rBit (Reg.tunStatus 0) 19 = true

/-- R61: a write of ARM := 1 with no leap armed arms the leap of DIR, or is refused with ERR set and ARM left at 0; while a leap is
armed it arms nothing. A write of ARM := 0 before LEAP_AT cancels it; from LEAP_AT on it is ignored. -/
def Sys2Proof.Machine.LeapWritesRule : Prop :=
  ∀ (s : State) (v : Word), s.hostOpen (Reg.tunLeapCtrl 0) = true →
    (bitOf v 19 = true → s.rBit (Reg.tunLeapCtrl 0) 19 = false → ∃ t, exec (.leapArm v) s = .next t ∧
      t.rBit (Reg.tunLeapCtrl 0) 18 = bitOf v 18 ∧
      (¬ s.leapArmRefused → t.rBit (Reg.tunLeapCtrl 0) 19 = true ∧
        t.leap = { s.leap with stepDue := true, secDue := false, startDue := true, endDue := true }) ∧
      (s.leapArmRefused → t.rBit (Reg.tunLeapCtrl 0) 19 = false ∧ t.rBit (Reg.tunLeapCtrl 0) 16 = true ∧ t.leap = s.leap) ∧
      t = { s with regs := t.regs, setNow := t.setNow, leap := t.leap } ∧ s.regsBut t [Reg.tunLeapCtrl 0]) ∧
    (s.rBit (Reg.tunLeapCtrl 0) 19 = true → ∃ t, exec (.leapArm v) s = .next t ∧ t.leap = s.leap ∧
      t.rBit (Reg.tunLeapCtrl 0) 19 = true ∧ t.rBit (Reg.tunLeapCtrl 0) 18 = s.rBit (Reg.tunLeapCtrl 0) 18) ∧
    (s.rBit (Reg.tunLeapCtrl 0) 19 = true → s.t0Units < s.leapAt → (∀ k : TunId, s.rBit (Reg.tunStatus k) 13 = false) →
      ∃ t, exec (.leapCancel v) s = .next t ∧ t.rBit (Reg.tunLeapCtrl 0) 19 = false ∧ t.leap = { Leap.cold with stepped := s.leap.stepped } ∧
        t = { s with regs := t.regs, setNow := t.setNow, leap := t.leap } ∧ s.regsBut t [Reg.tunLeapCtrl 0]) ∧
    (s.rBit (Reg.tunLeapCtrl 0) 19 = true → s.leapAt ≤ s.t0Units → ∃ t, exec (.leapCancel v) s = .next t ∧
      t.rBit (Reg.tunLeapCtrl 0) 19 = true ∧ t.leap = s.leap)

/-- R59, R60, R61: the leap's actions. With one enabled child of T0 of the kind concerned, k, and no commit that R54 discards: at LEAP_AT
a UTC-kind tuning is stepped by 1 s with LEAP_SEC set for an insertion; at LEAP_AT + 1 every LEAP_SEC clears; at LEAP_AT − W/2 a
SMEAR-kind tuning takes the rate r_c + r_s; at LEAP_AT + W/2 it takes its pre-smear offset moved by 1 s and its pre-smear rate and
origin. Each commit advances GEN. -/
def Sys2Proof.Machine.LeapActionsRule : Prop :=
  ∀ (s : State) (k : TunId), s.rBit (Reg.tunLeapCtrl 0) 19 = true → s.isChild k = true →
    (s.leap.stepDue = true → s.leapAt ≤ s.t0Units → s.tunsOfKind 1 = [k] → commitRange s k
        { kind := 2, seq := false, parent := false, nut := 0, val := ftOfUnits s.leapSign, rate := 0 } = false →
      ∃ t, exec .leapStep s = .next t ∧
        t.reading k s.nut = ftAdd (s.reading k s.nut) (ftOfUnits (if s.rBit (Reg.tunLeapCtrl 0) 18 then secUnits else -secUnits)) ∧
        t.rBit (Reg.tunStatus k) 14 = !s.rBit (Reg.tunLeapCtrl 0) 18 ∧
        t.rFld (Reg.tunStatus k) 0 8 = (s.rFld (Reg.tunStatus k) 0 8 + 1) % 256 ∧ t.leap.stepDue = false) ∧
    (s.leap.secDue = true → s.leapAt + secUnits ≤ s.t0Units →
      ∃ t, exec .leapSecEnd s = .next t ∧ (∀ j : TunId, t.rBit (Reg.tunStatus j) 14 = false) ∧ t.leap.secDue = false ∧
        (∀ j : TunId, t.reg100 (Reg.tunAncVal j) = s.reg100 (Reg.tunAncVal j))) ∧
    (s.leap.startDue = true → s.leapAt - s.smearHalf ≤ s.t0Units → s.tunsOfKind 2 = [k] →
      fitsSigned 40 ((s.reg40 (Reg.tunAncRate k)).toInt + s.smearRate) = true →
      fitsSigned 40 ((s.reg40 (Reg.tunAncRate 0)).toInt + (s.reg40 (Reg.tunAncRate k)).toInt + s.smearRate) = true →
      ∃ t, exec .smearStart s = .next t ∧
        (t.reg40 (Reg.tunAncRate k)).toInt = (s.reg40 (Reg.tunAncRate k)).toInt + s.smearRate ∧
        t.reading k s.nut = s.reading k s.nut ∧ t.rBit (Reg.tunStatus k) 13 = true ∧
        (t.tunings.get k).preOff = s.reg100 (Reg.tunAncVal k) ∧ (t.tunings.get k).preRate = s.reg40 (Reg.tunAncRate k) ∧
        (t.tunings.get k).preNut = s.reg80 (Reg.tunAncNut k) ∧ t.leap.startDue = false) ∧
    (s.leap.endDue = true → s.leap.startDue = false → s.leapAt + s.smearHalf ≤ s.t0Units →
      (∀ j : TunId, s.rBit (Reg.tunStatus j) 13 = (j == k)) →
      commitRange s k { kind := 0, seq := false, parent := true, nut := 0, val := 0, rate := (s.tunings.get k).preRate } = false →
      ∃ t, exec .smearEnd s = .next t ∧
        t.reg100 (Reg.tunAncVal k) = ftOfUnits (ftUnits (s.tunings.get k).preOff + s.leapSign) ∧
        t.reg40 (Reg.tunAncRate k) = (s.tunings.get k).preRate ∧ t.reg80 (Reg.tunAncNut k) = (s.tunings.get k).preNut ∧
        t.rBit (Reg.tunStatus k) 13 = false ∧ t.leap.endDue = false)


/-- R59, R60, R61: arming and cancelling a leap, and its actions.
Where the spec leaves a reading open it is the model's: notes/assumptions, entries 89, 90, 158. -/
def Obligations.LeapSeconds : Prop := Sys2Proof.Machine.LeapWritesRule ∧ Sys2Proof.Machine.LeapActionsRule

/-! ### Resets, boot, JTAG, the host domain, crossings and power -/

/-- R37, R473, R540: the PLL locks once RST_N is high, LO_IN runs and LO_SEL names a frequency; on the tick after it the nut starts
from 0 with its 28 replicas; RST_N's rise samples LO_SEL; loss of LO_IN sets LOST and clears LOCK while the nut goes on (R542). -/
def Sys2Proof.Machine.ClockStartRule : Prop :=
  ∀ s : State,
    (s.power.phase = .held → s.power.rstLow = false → s.power.loIn = true → s.rFld Reg.pwrLo 0 3 ≤ 5 →
      ∃ t, exec .pllLock s = .next t ∧ t.power = { s.power with phase := .locked } ∧ t.rBit Reg.pwrLo 19 = true ∧
        t = { s with power := t.power, regs := t.regs, setNow := t.setNow } ∧ s.regsBut t [Reg.pwrLo]) ∧
    (s.power.phase = .locked → ∃ t, exec .nutStart s = .next t ∧ t.nutRun = true ∧ t.power.phase = .up ∧
      (∀ i, t.replicas.get i = { dev := 0, fence := .service, fails := [] }) ∧
      t = { s with nutRun := t.nutRun, power := t.power, replicas := t.replicas }) ∧
    (∀ k, ∃ t, exec (.rstNRelease k) s = .next t ∧ t.power = { s.power with rstLow := false } ∧
      t.rFld Reg.pwrLo 0 3 = k.toNat ∧ t = { s with power := t.power, regs := t.regs, setNow := t.setNow } ∧ s.regsBut t [Reg.pwrLo]) ∧
    (∃ t, exec .loInLoss s = .next t ∧ t.power.loIn = false ∧ t.rBit Reg.pwrLo 18 = true ∧ t.rBit Reg.pwrLo 19 = false ∧
      t.rBit Reg.pwrCause 18 = true ∧ t.nut = s.nut ∧ t.nutRun = s.nutRun ∧ s.regsBut t [Reg.pwrLo, Reg.pwrCause]) ∧
    (∃ t, exec .loInReturn s = .next t ∧ t = { s with power := { s.power with loIn := true } }) ∧
    (s.power.loIn = true → ∃ t, exec .pllResettle s = .next t ∧ t.rBit Reg.pwrLo 19 = true ∧ s.onlyRegs t [Reg.pwrLo])

/-- R470, R472, R481: what a cold reset of source `src` leaves of `s`: every register at its cold-reset value but the source and the
LO_SEL sample, and every other piece of state as after reset but the pins, the JTAG port and host memory. -/
def Sys2Proof.Machine.State.coldFrom (s t : State) (src : Nat) : Prop :=
  t = { State.reset with regs := t.regs, setNow := t.setNow, power := t.power, hostMem := s.hostMem, freeCtr := t.freeCtr, pending := s.pending } ∧
  t.power.phase = .held ∧ t.power.xing = State.reset.power.xing ∧ t.power.perstLow = s.power.perstLow ∧
  t.power.loIn = s.power.loIn ∧ (∀ a, a ≠ Reg.pwrLo → a ≠ Reg.pwrRstLast → t.reg a = regReset a) ∧
  t.rFld Reg.pwrRstLast 17 3 = src

/-- R470, R471, R551, R558: the sources of a cold reset, and what keeps one from starting. A pulse on RST_N of 1 µs or longer
starts one and holds it, one below 100 ns never does, and one between those may or may not. -/
def Sys2Proof.Machine.ColdResetsRule : Prop :=
  ∀ s : State,
    (∀ k, ∃ t, exec (.powerOn k) s = .next t ∧ s.coldFrom t 0 ∧ t.rFld Reg.pwrLo 0 3 = k.toNat ∧ t.power.jtag = .idcode) ∧
    (∀ ns, 1000 ≤ ns → ∃ t, exec (.rstNAssert ns) s = .next t ∧ s.coldFrom t 1 ∧ t.power.rstLow = true) ∧
    (∀ ns, ns < 100 → exec (.rstNAssert ns) s = .next s) ∧
    (∀ ns, 100 ≤ ns → ns < 1000 → ∃ t, exec (.rstNAssert ns) s = .next t ∧
      (t = { s with freeCtr := t.freeCtr } ∨ s.coldFrom t 1 ∧ t.power.rstLow = true)) ∧
    (∃ t, exec .jtagDevrst s = .next t ∧ s.coldFrom t 4 ∧ t.power.jtag = .devrst) ∧
    (∀ v, s.hostOpen Reg.devRst = true → fld v 0 16 = 0xA5C3 → bitOf v 18 = true →
      ∃ t, exec (.coldResetCmd v) s = .next t ∧ s.coldFrom t 2)

/-- R471: DEV_RST acts only when KEY = 0xA5C3 is written in the same write; any other key is ignored and sets DEV_CFG_ERR. A write
with both WARM and COLD acts as COLD, and one of WARM while a warm reset is in progress is ignored. The same for each command that
writes the register, the loader and a boot aside (`hostOpen`). -/
def Obligations.ResetRequests : Prop :=
  ∀ (s : State) (v : Word) (c : Instr), s.hostOpen Reg.devRst = true →
    c = .coldResetCmd v ∨ c = .warmReset v ∨ c = .registerWrite Reg.devRst v true →
    (fld v 0 16 ≠ 0xA5C3 →
      ∃ t, exec c s = .next t ∧ t.rBit Reg.devCfgErr 19 = true ∧ s.onlyRegs t [Reg.devCfgErr]) ∧
    (fld v 0 16 = 0xA5C3 → bitOf v 18 = true → ∃ t, exec c s = .next t ∧ s.coldFrom t 2) ∧
    (fld v 0 16 = 0xA5C3 → bitOf v 18 = false → bitOf v 19 = true → s.rBit Reg.pwrStat 18 = false →
      ∃ t, exec c s = .next t ∧ t.rBit Reg.pwrStat 18 = true ∧ t.nut = s.nut) ∧
    (fld v 0 16 = 0xA5C3 → bitOf v 18 = false → bitOf v 19 = true → s.rBit Reg.pwrStat 18 = true → exec c s = .next s) ∧
    (fld v 0 16 = 0xA5C3 → bitOf v 18 = false → bitOf v 19 = false → exec c s = .next s)

/-- R551: the instructions that select a JTAG register change the TAP alone: every other piece of state stays. -/
def Sys2Proof.Machine.JtagInstructionsRule : Prop :=
  ∀ s : State,
    (∃ t, exec .jtagExtest s = .next t ∧ t = { s with power := { s.power with jtag := .extest } }) ∧
    (∀ b, ∃ t, exec (.jtagSamplePreload b) s = .next t ∧ t = { s with power := { s.power with jtag := .sample, bsr := b } }) ∧
    (∃ t, exec .jtagIdcode s = .next t ∧ t = { s with power := { s.power with jtag := .idcode } }) ∧
    (∀ code, jtagListed code = false → ∃ t, exec (.jtagBypass code) s = .next t ∧
      t = { s with power := { s.power with jtag := .bypass } }) ∧
    (∃ t, exec .jtagTestLogicReset s = .next t ∧ t = { s with power := { s.power with jtag := .idcode } })

/-- R471, R473, R475, R491, R492: a warm reset sets PWR_STAT.WARM and puts every course into course reset;
its boot ends it with WARM_DONE; DEV_CRS_RST holds and releases one course.
Where the spec leaves a reading open it is the model's: notes/assumptions, entries 44, 48, 162, 179. -/
def Obligations.WarmAndCourseResets : Prop :=
  ∀ s : State,
    (∀ v, s.hostOpen Reg.devRst = true → fld v 0 16 = 0xA5C3 → bitOf v 18 = false → bitOf v 19 = true →
      s.rBit Reg.pwrStat 18 = false → ∃ t, exec (.warmReset v) s = .next t ∧ t.rBit Reg.pwrStat 18 = true ∧
        t.rBit Reg.cfgStat 19 = true ∧ t.rBit Reg.pwrRstLast 16 = true ∧ t.rdShadow = s.rdShadow ∧ (∀ k : TunId, t.anchor k = s.anchor k) ∧
        t.client = s.client ∧ t.keys = s.keys ∧ t.nut = s.nut ∧
        (∀ c : CourseId, t.crsState c = CS.reset ∧ (t.course c).buf = Memory.lost)) ∧
    (∀ flash, s.rBit Reg.pwrStat 18 = true → s.rBit Reg.cfgStat 19 = true → s.rBit Reg.cfgSpiCmd 18 = false →
      ∃ t, exec (.warmBoot flash) s = .next t ∧ t.rBit Reg.pwrStat 18 = false ∧ t.rBit Reg.pwrCause 15 = true ∧
        t.rBit Reg.cfgStat 19 = false ∧ t.rBit Reg.cfgCause 19 = true ∧
        (imageReason flash = 0 → t.rBit Reg.cfgStat 18 = false ∧ t.rBit Reg.cfgStat 17 = false) ∧
        (imageReason flash ≠ 0 → t.rBit Reg.cfgStat 18 = true ∧ t.rBit Reg.cfgStat 17 = true ∧ t.rBit Reg.cfgCause 18 = true)) ∧
    (∀ c : CourseId, s.hostOpen Reg.devCrsRst = true → s.rBit Reg.devCrsRst c = false → ∃ t, exec (.courseResetHold c) s = .next t ∧
      t.rBit Reg.devCrsRst c = true ∧ t.crsState c = CS.reset ∧ (t.course c).buf = Memory.lost ∧
      (t.course c).prog = (if (s.load.any fun j => j.course == c && imageReason j.flash == 0) then Memory.lost
        else (s.course c).prog) ∧ t.nut = s.nut ∧ ∀ k : TunId, t.anchor k = s.anchor k) ∧
    (∀ c : CourseId, s.hostOpen Reg.devCrsRst = true → s.rBit Reg.devCrsRst c = true → s.powered (1 + c.val) = true →
      s.rBit Reg.pwrStat 18 = false → (s.course c).toRom = false → ∃ t, exec (.courseResetRelease c) s = .next t ∧
        t.rBit Reg.devCrsRst c = false ∧ t.crsState c = CS.drained)

/-- R488, R489: the end of a cold boot. BUSY clears and DONE is set; an accepted image clears DEFAULTED and WARM_DEF, and a refused
one sets DEFAULTED with its cause and leaves every course in ROM. -/
def Sys2Proof.Machine.ColdBootRule : Prop :=
  ∀ (s : State) (flash : List Byte), s.power.phase = .up → s.coldBooting = true →
    ∃ t, exec (.coldBoot flash) s = .next t ∧ t.rBit Reg.cfgStat 19 = false ∧ t.rBit Reg.cfgCause 19 = true ∧
      (imageReason flash = 0 → t.rBit Reg.cfgStat 18 = false ∧ t.rBit Reg.cfgStat 17 = false) ∧
      (imageReason flash ≠ 0 → t.rBit Reg.cfgStat 18 = true ∧ t.rBit Reg.cfgCause 18 = true ∧
        ∀ c : CourseId, t.crsState c = CS.rom)

/-- R472: what a host-domain reset of `s` leaves: IRQ_CTRL, the link and the shadows at their reset values, the rings empty, and
crossing 49 void; time, tunings' anchors, courses' memories and keys are kept. -/
def Sys2Proof.Machine.State.hostResetOf (s t : State) : Prop :=
  t.reg Reg.irqCtrl = 0 ∧ t.rBit Reg.devPcieStat 19 = false ∧ t.rBit Reg.devPcieStat 18 = false ∧ t.rdShadow = [] ∧ t.wrShadow = [] ∧
  (∀ r : RingId, t.reg (Reg.devRxCtrl r) = 0 ∧ t.reg (Reg.devTxCtrl r) = 0 ∧ t.txRings.get r = TxRing.cold) ∧
  t.isVoid 49 = true ∧ t.nut = s.nut ∧ t.keys = s.keys ∧ t.client = s.client ∧ t.ctxs = s.ctxs ∧ t.lines = s.lines ∧
  t.picks = s.picks ∧ t.slots = s.slots ∧ t.bridge = s.bridge

/-- R470, R472, R478, R502, R503, R520: the host domain. PERST_N, the link, a hot reset, a function-level reset and D3hot reset it; a
link that trains shows LINK_UP; Bus Master Enable follows its writes. -/
def Sys2Proof.Machine.HostDomainRule : Prop :=
  ∀ s : State,
    (s.power.phase = .up → s.powered 11 = true → s.power.trans = none →
      (∀ d : DomainId, s.rBit Reg.pwrCtrl d = s.powered d) →
      ∃ t, exec .perstAssert s = .next t ∧ t.power.perstLow = true ∧ s.hostResetOf t) ∧
    (∃ t, exec .perstRelease s = .next t ∧ t = { s with power := { s.power with perstLow := false } }) ∧
    (s.hostUp = true → ∃ t, exec .pcieLinkDown s = .next t ∧ s.hostResetOf t) ∧
    (s.hostUp = true → ∃ t, exec .pcieHotReset s = .next t ∧ s.hostResetOf t) ∧
    (s.hostUp = true → ∃ t, exec .functionLevelReset s = .next t ∧ s.hostResetOf t) ∧
    (s.hostUp = true → ∃ t, exec .d3hotEntry s = .next t ∧ s.hostResetOf t ∧ t.rFld Reg.devPcieStat 9 2 = 3) ∧
    (∀ sp w, s.hostUp = true → ∃ t, exec (.pcieLinkUp sp w) s = .next t ∧ t.rBit Reg.devPcieStat 19 = true ∧
      t.rFld Reg.devPcieStat 15 3 = sp.toNat ∧ t.rFld Reg.devPcieStat 11 4 = w.toNat ∧ t.rFld Reg.devPcieStat 9 2 = 0 ∧
      s.onlyRegs t [Reg.devPcieStat]) ∧
    (s.hostUp = true → ∃ t, exec .busMasterEnable s = .next t ∧ t.rBit Reg.devPcieStat 18 = true ∧
      s.onlyRegs t [Reg.devPcieStat]) ∧
    (s.hostUp = true → ∃ t, exec .busMasterDisable s = .next t ∧ t.rBit Reg.devPcieStat 18 = false ∧ t.dmaUp = false ∧
      s.onlyRegs t [Reg.devPcieStat])

/-- R455, R466, R468: the clock of an island lost voids its crossing, with a record where it was not void and no count, until the clock
returns and the re-handshake completes; only then does VOID clear, and what waited starts to cross. -/
def Sys2Proof.Machine.CrossingsRule : Prop :=
  ∀ s : State,
    (∀ x : Fin 50, (s.power.xing.get ⟨x.val, by omega⟩).lost = false → (x.val < 24 ∨ x.val = 48) →
      ∃ t, exec (.islandClockLoss x) s = .next t ∧ t.power.xing.get ⟨x.val, by omega⟩ = { void := true, lost := true } ∧
        t.reg Reg.irqVoidCnt = s.reg Reg.irqVoidCnt ∧
        (s.isVoid ⟨x.val, by omega⟩ = false → t.rBit Reg.irqFault 13 = true ∧
          t.irq.due = s.irq.due ++ [{ code := 15, action := 1, unit := 11, index := x.val, d1 := 1, d2 := 0 }]) ∧
        (s.isVoid ⟨x.val, by omega⟩ = true → t.irq = s.irq ∧ t.reg Reg.irqFault = s.reg Reg.irqFault) ∧ (∀ y : Fin 56, y.val ≠ x.val → t.power.xing.get y = s.power.xing.get y)) ∧
    (∀ x : Fin 50, ∃ t, exec (.islandClockReturn x) s = .next t ∧
      t.power.xing.get ⟨x.val, by omega⟩ = { (s.power.xing.get ⟨x.val, by omega⟩) with lost := false } ∧
      t = { s with power := t.power }) ∧
    (∀ x : Fin 56, s.isVoid x = true → (s.power.xing.get x).lost = false → s.sidesUp x = true →
      ∃ t, exec (.voidClear x) s = .next t ∧ t.isVoid x = false ∧
        t = { s with power := t.power, regs := t.regs, setNow := t.setNow, tunings := t.tunings, plucks := t.plucks, edges := t.edges,
                     cntReq := t.cntReq, flight := t.flight } ∧
        s.regsBut t ((List.range 16).map Reg.tunStatus ++ (List.range 256).map Reg.plkStat ++ (List.range 8).map Reg.plkEdgeStat) ∧
        ∀ y, y ≠ x → t.power.xing.get y = s.power.xing.get y) ∧
    (∀ x : Fin 56, (s.power.xing.get x).lost = true → exec (.voidClear x) s = .next s)

/-- R476, R477, R481: one domain in transition at a time. A switch of PWR_CTRL.ON starts the transition, BUSY shows it, and its end
sets DOMAIN_DONE; PD9 off leaves no key and PD10 off no harp memory. -/
def Sys2Proof.Machine.PowerDomainsRule : Prop :=
  ∀ (s : State) (d : DomainId), s.power.phase = .up → (9 ≤ d.val ∧ d.val ≤ 10) →
    (∀ e : DomainId, e ≠ d → s.rBit Reg.pwrCtrl e = s.powered e) → s.rBit Reg.pwrCtrl 0 = true →
    (s.power.trans = none → s.hostOpen Reg.pwrCtrl = true → s.powered d = false →
      ∃ t, exec (.domainSwitchOn d) s = .next t ∧ t.rBit Reg.pwrCtrl d = true ∧ t.power.trans = some (d, true) ∧
        t.rBit Reg.pwrStat 19 = true ∧ t.powered d = false) ∧
    (s.power.trans = none → s.hostOpen Reg.pwrCtrl = true → s.powered d = true →
      ∃ t, exec (.domainSwitchOff d) s = .next t ∧ t.rBit Reg.pwrCtrl d = false ∧ t.power.trans = some (d, false) ∧
        t.rBit Reg.pwrStat 19 = true ∧ t.powered d = false) ∧
    (s.power.trans = some (d, true) → s.rBit Reg.pwrCtrl d = true → ∃ t, exec (.domainPowerUpDone d) s = .next t ∧
      t.powered d = true ∧ t.rBit Reg.pwrStat 19 = false ∧ t.rBit Reg.pwrCause 19 = true ∧ t.power.trans = none) ∧
    (s.power.trans = some (d, false) → s.rBit Reg.pwrCtrl d = false → s.powered d = false →
      ∃ t, exec (.domainPowerDownDone d) s = .next t ∧
        t.rBit Reg.pwrStat 19 = false ∧ t.rBit Reg.pwrCause 19 = true ∧ t.power.trans = none ∧
        (d.val = 9 → t.keys = []) ∧ (d.val = 10 → t.harp.mem = Memory.lost))

/-- R479, R480: the monitors. With every reading at or above its level and no monitor rising, a sample leaves each OK bit; a second
reading of VDD_TDC below 0.75 V drops TDC_OK and sets SUPPLY; a second one of VDD_TI is a brown-out. A sensor at or above WARN
or CRIT sets its bit. -/
def Sys2Proof.Machine.SuppliesAndTemperatureRule : Prop :=
  (∀ (s : State) (l : SupplyLevels), s.rFld Reg.pwrSupply 8 5 = 31 → s.rBit Reg.pwrSupply 17 = true →
    s.rBit Reg.pwrSupply 19 = true → 7500 ≤ l.ti → (∀ v ∈ l.sb.toList, 5700 ≤ v) → 8000 ≤ l.sd → 11400 ≤ l.sda → 16600 ≤ l.io18 →
    31300 ≤ l.io33 → l.tdc < 7500 → s.rBit Reg.pwrSupply 18 = true →
    ∃ t, exec (.supplySample l) s = .next t ∧ t.rBit Reg.pwrSupply 18 = decide (s.power.below.get 1 = 0) ∧
      (s.power.below.get 1 ≠ 0 → t.rBit Reg.pwrCause 18 = true) ∧ t.rBit Reg.pwrSupply 19 = true ∧
      t = { s with regs := t.regs, setNow := t.setNow, power := t.power } ∧ s.regsBut t [Reg.pwrSupply, Reg.pwrCause]) ∧
  (∀ (s : State) (l : SupplyLevels), s.rBit Reg.pwrSupply 19 = true → 1 ≤ s.power.below.get 0 → l.ti < 7500 →
    ∃ t, exec (.supplySample l) s = .next t ∧ s.coldFrom t 3) ∧
  (∀ (s : State) (n : Fin 4) (theta : BitVec 16), ∃ t, exec (.tempSensorUpdate n theta) s = .next t ∧
    t.rBit (Reg.pwrTemp n) 19 = true ∧ t.rFld (Reg.pwrTemp n) 0 16 = theta.toNat ∧
    (s.rBit (Reg.pwrTemp n) 19 = false → (s.rFld Reg.pwrTherm 8 8 : Int) * 128 ≤ theta.toInt → t.rBit Reg.pwrCause 17 = true) ∧
    (s.rBit (Reg.pwrTemp n) 19 = false → (s.rFld Reg.pwrTherm 0 8 : Int) * 128 ≤ theta.toInt → t.rBit Reg.pwrCause 16 = true) ∧
    s.onlyRegs t [Reg.pwrTemp n, Reg.pwrCause])


/-- R476, R477, R479 to R481: domain transitions, supply monitors and temperature sensors.
Where the spec leaves a reading open it is the model's: notes/assumptions, entries 47, 57. -/
def Obligations.PowerAndMonitors : Prop := Sys2Proof.Machine.PowerDomainsRule ∧ Sys2Proof.Machine.SuppliesAndTemperatureRule


/-- R470, R471, R551, R558: the sources of a cold reset, and the JTAG instructions.
Where the spec leaves a reading open it is the model's: notes/assumptions, entries 49, 50, 58. -/
def Obligations.ColdResetsAndJtag : Prop := Sys2Proof.Machine.ColdResetsRule ∧ Sys2Proof.Machine.JtagInstructionsRule


/-- R37, R473, R488, R489, R540: the start of the clock and of the nut, and the cold boot.
Where the spec leaves a reading open it is the model's: notes/assumptions, entries 7, 11, 109. -/
def Obligations.StartUp : Prop := Sys2Proof.Machine.ClockStartRule ∧ Sys2Proof.Machine.ColdBootRule


/-- R455, R466, R468, R470, R472, R478, R502, R503, R520: the host domain and the crossings.
Where the spec leaves a reading open it is the model's: notes/assumptions, entries 43, 51, 52, 56, 107, 163. -/
def Obligations.HostDomainAndCrossings : Prop := Sys2Proof.Machine.HostDomainRule ∧ Sys2Proof.Machine.CrossingsRule

/-! ### TDC lines -/

/-- R69 to R71, R73, R78, R80, R83: calibration of line `l`. A hit is taken while CAL_EN is 1 and the line's domain is on, unless R70 bars
it, and waits for its verdict: it is kept unless a real event lies in the four ticks around its window. At the 2²⁰th kept hit a passing table becomes the shadow with READY, its
entries by the code-density formula; a failing one counts in FAILS and the third in a row sets DEGRADED; the active table stays.
Where the spec leaves a reading open it is the model's: notes/assumptions, entries 59, 61, 166, 167, 168, 187. -/
def Obligations.LineCalibration : Prop :=
  ∀ (s : State) (l : LineId),
    (∀ (code : Code) (w : Nut), s.rBit Reg.nutTdcCtrl 19 = true → s.powered (lineDomain l) = true → s.hitBarred l w = false →
      ∃ t, exec (.calibrationHit l code w) s = .next t ∧
        t.lines.get l = { (s.lines.get l) with pend := (s.lines.get l).pend ++ [(w, code.val)], hitAt := some w } ∧
        (∀ m, m ≠ l → t.lines.get m = s.lines.get m) ∧ t = { s with lines := t.lines }) ∧
    (∀ (code : Code) (w : Nut), s.hitBarred l w = true → exec (.calibrationHit l code w) s = .next s) ∧
    (∀ (x : Line) (now w : Nut) (c : Nat), x.pend = [(w, c)] → x.kept < 2 ^ 20 → reached now (w + 163840) = true →
      ((∀ e ∈ x.caps, (e - w).toInt / 163840 < -2 ∨ 1 < (e - w).toInt / 163840) →
        (x.settle now).kept = x.kept + 1 ∧ hitsOf (x.settle now).hist c = hitsOf x.hist c + 1 ∧
        (∀ k, k ≠ c → hitsOf (x.settle now).hist k = hitsOf x.hist k) ∧ (x.settle now).pend = []) ∧
      ((∃ e ∈ x.caps, -2 ≤ (e - w).toInt / 163840 ∧ (e - w).toInt / 163840 ≤ 1) → x.settle now = { x with pend := [] })) ∧
    (l ≠ 65 → s.settleHits.lines.get l = (s.lines.get l).settle s.nut) ∧
    (∀ (code : Code) (w : Nut), s.rBit Reg.nutTdcCtrl 19 = false → exec (.calibrationHit l code w) s = .next s) ∧
    ((s.lines.get l).kept = 2 ^ 20 → histPasses (s.lines.get l).hist = true → ∃ t, exec (.tableComplete l) s = .next t ∧
      t.rBit (Reg.nutTdcLs l) LS.ready = true ∧ t.active l = s.active l ∧
      (t.shadow l).span = histSpan (s.lines.get l).hist ∧ (t.shadow l).ins = s.insNow l ∧ (t.shadow l).gen = s.nextGen l ∧
      (∀ c, c < histSpan (s.lines.get l).hist → ((t.shadow l).entry c).2.2 =
        (roundHaz ((2 * hitsBelow (s.lines.get l).hist c + hitsOf (s.lines.get l).hist c : Nat) * 163840) (2 ^ 21)).toNat) ∧
      (t.lines.get l).kept = 0 ∧ (t.lines.get l).hist = [] ∧ (∀ m, m ≠ l → t.lines.get m = s.lines.get m) ∧
      t = { s with lines := t.lines, regs := t.regs, setNow := t.setNow, bad := t.bad } ∧ s.regsBut t [Reg.nutTdcLs l]) ∧
    ((s.lines.get l).kept = 2 ^ 20 → histPasses (s.lines.get l).hist = false → ∃ t, exec (.tableComplete l) s = .next t ∧
      t.rBit (Reg.nutTdcLs l) LS.calFail = true ∧ t.active l = s.active l ∧ t.shadow l = s.shadow l ∧
      t.rFld (Reg.nutTdcLs l) 9 4 = min 15 (s.rFld (Reg.nutTdcLs l) 9 4 + 1) ∧
      (2 ≤ s.rFld (Reg.nutTdcLs l) 9 4 → t.rBit (Reg.nutTdcLs l) LS.degraded = true) ∧
      (s.rFld (Reg.nutTdcLs l) 9 4 < 2 → t.rBit (Reg.nutTdcLs l) LS.degraded = s.rBit (Reg.nutTdcLs l) LS.degraded) ∧
      (t.lines.get l).kept = 0) ∧
    ((s.lines.get l).batchN = 65536 → ∃ t, exec (.driftEval l) s = .next t ∧ (t.lines.get l).batchN = 0 ∧
      t.rBit (Reg.nutTdcLs l) LS.drift =
        decide (2 ≤ (batchMedian (s.lines.get l).batch : Int) - (s.active l).halfCode ∨
          2 ≤ ((s.active l).halfCode : Int) - batchMedian (s.lines.get l).batch) ∧
      (s.rBit (Reg.nutTdcLs l) LS.drift = false → t.rBit (Reg.nutTdcLs l) LS.drift = true → t.rBit (Reg.irqGrp 12) 14 = true) ∧
      t = { s with lines := t.lines, regs := t.regs, setNow := t.setNow } ∧ s.regsBut t [Reg.nutTdcLs l, Reg.irqGrp 12]) ∧
    (s.nutRun = true → (msNut (s.rFld Reg.nutTdcCtrl 0 10)).toNat < (s.nut - (s.active l).swap).toNat →
      s.rBit (Reg.nutTdcLs l) LS.stale = false → ∃ t, exec (.staleRise l) s = .next t ∧
        t.rBit (Reg.nutTdcLs l) LS.stale = true ∧ t.rBit (Reg.irqGrp 12) 15 = true ∧
        s.onlyRegs t [Reg.nutTdcLs l, Reg.irqGrp 12]) ∧
    (∀ v, s.hostOpen Reg.nutTdcCtrl = true → ∃ t, exec (.tdcCtrlWrite v) s = .next t ∧
      t.rBit Reg.nutTdcCtrl 19 = bitOf v 19 ∧ t.rFld Reg.nutTdcCtrl 0 10 = fld v 0 10 ∧
      (bitOf v 19 = false → ∀ m, (t.lines.get m).hist = [] ∧ (t.lines.get m).kept = 0) ∧
      (∀ m, (t.lines.get m).t0 = (s.lines.get m).t0 ∧ (t.lines.get m).t1 = (s.lines.get m).t1))

/-! ### Ports, frets and the packet path -/

/-- R275, R92: what LINK follows from, given PCS_LOCK. -/
def Sys2Proof.Machine.State.linkUpWith (s : State) (p : PortId) (lock hiBer fault anDone : Bool) : Bool :=
  lock && !hiBer && !fault && (!s.rBit (Reg.prtCtrl p) 13 || anDone)

/-- R275: LINK is 1 while PCS_LOCK is 1, HI_BER is 0, no fault is signalled and, with AN = 1, AN_DONE is 1; a change of LINK sets
LINK_CHANGE. Lock restarts the port's receive UI count at 0 (R85); that it also clears RX_LOS is the model's reading (log entry 72).
Each line event of a running port whose LINK is 0 changes no other register, and nothing else but the signalled fault and that
count. -/
def Sys2Proof.Machine.LinkRisesRule : Prop :=
  ∀ (s : State) (p : PortId), s.portRuns p = true → s.rBit (Reg.prtStat p) 19 = false →
    let lock := s.rBit (Reg.prtStat p) 18
    let hi := s.rBit (Reg.prtStat p) 17
    let an := s.rBit (Reg.prtStat p) 15
    let done := fun (t : State) (link : Bool) =>
      t.rBit (Reg.prtStat p) 19 = link ∧ (link = true → t.rBit (Reg.prtCause p) 19 = true) ∧
      s.regsBut t [Reg.prtStat p, Reg.prtCause p]
    (lock = false → ∃ t, exec (.pcsLockGain p) s = .next t ∧ t.rBit (Reg.prtStat p) 18 = true ∧
      t.rBit (Reg.prtStat p) 14 = false ∧ (t.port p).rxUi = 0 ∧
      done t (s.linkUpWith p true hi (s.port p).fault an) ∧ t = { s with regs := t.regs, setNow := t.setNow, ports := t.ports } ∧
      (∀ q, q ≠ p → t.port q = s.port q)) ∧
    (s.rBit (Reg.prtCtrl p) 13 = true → lock = true → ∃ t, exec (.anDone p) s = .next t ∧ t.rBit (Reg.prtStat p) 15 = true ∧
      done t (s.linkUpWith p lock hi (s.port p).fault true) ∧ t = { s with regs := t.regs, setNow := t.setNow }) ∧
    (∀ h, ∃ t, exec (.hiBerChange p h) s = .next t ∧ t.rBit (Reg.prtStat p) 17 = h ∧
      done t (s.linkUpWith p lock h (s.port p).fault an) ∧ t = { s with regs := t.regs, setNow := t.setNow }) ∧
    (∀ f, ∃ t, exec (.linkFaultSignal p f) s = .next t ∧ (t.port p).fault = f ∧
      done t (s.linkUpWith p lock hi f an) ∧ t = { s with regs := t.regs, setNow := t.setNow, ports := t.ports } ∧
      (∀ q, q ≠ p → t.port q = s.port q))

/-- R92, R275: loss of PCS lock clears PCS_LOCK, RX_VALID and LINK; where LINK was 1, LINK_CHANGE is set and every frame of the
port's transmit queues completes LINK_DOWN (status 6), once. -/
def Sys2Proof.Machine.LockLossRule : Prop :=
  ∀ (s : State) (p : PortId), s.rBit (Reg.prtStat p) 18 = true →
    ∃ t, exec (.pcsLockLoss p) s = .next t ∧ t.rBit (Reg.prtStat p) 18 = false ∧ t.rBit (Reg.prtStat p) 19 = false ∧
      t.rBit (Reg.fretStat p) 19 = false ∧
      (s.rBit (Reg.prtStat p) 19 = true → t.rBit (Reg.prtCause p) 19 = true ∧ (∀ c : Fin 4, (t.port p).queues.get c = []) ∧
        ∀ c : CourseId, (t.course c).sent = (s.course c).sent ++
          ((s.port p).queues.toList.flatten.filter fun e => e.course == c).map fun e =>
            { send := e, d := doneOf e 6 0 false }) ∧
      (s.rBit (Reg.prtStat p) 19 = false → t.ports = s.ports ∧ t.courses = s.courses)

/-- R91: a fret's count window ends every 2¹⁹ ticks. A count within 1/5000 of N0 is taken and makes its side valid; one outside sets the
side's alarm and is not taken. -/
def Sys2Proof.Machine.FretWindowsRule : Prop :=
  ∀ (s : State) (p : PortId) (tx : Bool) (n : Word), s.nutRun = true → s.nut.toNat % (524288 * 163840) = 0 →
    s.portRuns p = true → (tx = false → s.rBit (Reg.prtStat p) 18 = true) →
    (if tx then (s.port p).txWin else (s.port p).rxWin) ≠ s.nut →
    let cnt := if tx then Reg.fretTxcnt p else Reg.fretRxcnt p
    let n0 := (s.modeRow p).n0
    ∃ t, exec (.fretWindowEnd p tx n) s = .next t ∧
      (5000 * ((n.toNat : Int) - n0).natAbs ≤ n0 → t.reg cnt = n ∧ t.rBit (Reg.fretStat p) (if tx then 18 else 19) = true) ∧
      (n0 < 5000 * ((n.toNat : Int) - n0).natAbs → t.reg cnt = s.reg cnt ∧
        t.rBit (Reg.fretStat p) (if tx then 16 else 17) = true) ∧
      t = { s with regs := t.regs, setNow := t.setNow, ports := t.ports } ∧ s.regsBut t [cnt, Reg.fretStat p]

/-- R273, R274: a port reset, and its end. Every frame of the transmit side ends, PCS_LOCK and LINK clear; an illegal word is refused
as a whole with CFG_ERR. RST written to 0 ends a reset that RST held. -/
def Sys2Proof.Machine.PortResetsRule : Prop :=
  ∀ (s : State) (p : PortId) (v : Word), s.hostOpen (Reg.prtCtrl p) = true →
    (prtCtrlBad v = false → (bitOf v 18 = true ∨ (s.reg (Reg.prtCtrl p) &&& 0xBF000) ≠ (v &&& 0xBF000)) →
      ∃ t, exec (.portReset p v) s = .next t ∧ (t.port p).fill = [] ∧ (t.port p).launch = [] ∧ (t.port p).stage = [] ∧
        (t.port p).depart = [] ∧ (∀ c : Fin 4, (t.port p).queues.get c = []) ∧ t.rBit (Reg.prtStat p) 18 = false ∧
        t.rBit (Reg.prtStat p) 19 = false ∧ t.rBit (Reg.fretStat p) 18 = false ∧ t.rBit (Reg.fretStat p) 19 = false ∧
        (t.reg (Reg.prtCtrl p) &&& 0xFF000) = (v &&& 0xFF000) ∧ t.isVoid ⟨p.val, by omega⟩ = true ∧
        t.isVoid ⟨24 + p.val, by omega⟩ = true ∧ (∀ q, q ≠ p → t.port q = s.port q) ∧ t.nut = s.nut ∧ t.tunings = s.tunings) ∧
    (prtCtrlBad v = true → ∃ t, exec (.portReset p v) s = .next t ∧ t.rBit (Reg.prtCtrl p) 11 = true ∧
      (∀ n, n < 20 → n ≠ 11 → t.rBit (Reg.prtCtrl p) n = s.rBit (Reg.prtCtrl p) n) ∧ (t.port p) = (s.port p)) ∧
    (s.rBit (Reg.prtCtrl p) 18 = true → (s.reg (Reg.prtCtrl p) &&& 0xBF000) = (v &&& 0xBF000) →
      prtCtrlBad (putBit v 18 false) = false → (s.port p).held = false →
      ∃ t, exec (.portResetEnd p v) s = .next t ∧ t.rBit (Reg.prtCtrl p) 18 = false ∧ (t.port p) = (s.port p) ∧
        (t.reg (Reg.prtCtrl p) &&& 0xBF000) = (s.reg (Reg.prtCtrl p) &&& 0xBF000))

/-- R277: MODABS samples. A module's presence changes only after ten samples in a row that disagree with MOD_PRESENT, and then sets
MOD_CHANGE. -/
def Sys2Proof.Machine.ModuleSamplesRule : Prop :=
  ∀ (s : State) (levels : BitVec 24), (∀ p : PortId, (s.panel.mods.get p).level = s.rBit (Reg.prtStat p) 16) →
    (∀ p : PortId, (s.panel.mods.get p).run < 10) → ∃ t, exec (.moduleSample levels) s = .next t ∧
      ∀ p : PortId,
        let now := !levels.getLsbD p
        let was := s.rBit (Reg.prtStat p) 16
        (now = was → t.rBit (Reg.prtStat p) 16 = was ∧ (t.panel.mods.get p).run = 0) ∧
        (now ≠ was → (s.panel.mods.get p).run < 9 → t.rBit (Reg.prtStat p) 16 = was ∧
          (t.panel.mods.get p).run = (s.panel.mods.get p).run + 1) ∧
        (now ≠ was → (s.panel.mods.get p).run = 9 → t.rBit (Reg.prtStat p) 16 = now ∧ t.rBit (Reg.prtCause p) 18 = true)

/-- R278: the I2C commands. With the bus free and the module present a command sets BUSY and takes the bus for its
messages (the switch byte, where MUX_ADDR is not 0, and the module's access), at the speed FAST gives; with no module it
completes at once ABSENT; while BUSY it is ignored. Its end clears BUSY, sets I2C_DONE, and shows a NACK or, for a read, the
bytes, the first in DATA[15:8]. -/
def Sys2Proof.Machine.ModuleAccessRule : Prop :=
  ∀ (s : State) (p : PortId) (v : Word),
    (s.hostOpen (Reg.prtI2cCmd p) = true → s.rBit (Reg.prtI2cCmd p) 17 = false → s.rBit (Reg.prtStat p) 16 = true →
      (∀ q : PortId, q.val / 6 = p.val / 6 → q ≠ p → s.rBit (Reg.prtI2cCmd q) 17 = false) → s.i2cRun.get (busOf p) = none →
      (∃ t, exec (.i2cReadCmd p v) s = .next t ∧ t.rBit (Reg.prtI2cCmd p) 17 = true ∧ t.rBit (Reg.prtI2cCmd p) 18 = true ∧
        t.rFld (Reg.prtI2cCmd p) 0 8 = fld v 0 8 ∧ t.i2cRun.get (busOf p) = some { port := p, msgs := t.i2cMsgs p, fast := s.rBit (Reg.prtI2cMux p) 15 } ∧
        t = { s with regs := t.regs, setNow := t.setNow, i2cRun := t.i2cRun } ∧ s.regsBut t [Reg.prtI2cCmd p]) ∧
      (∃ t, exec (.i2cWriteCmd p v) s = .next t ∧ t.rBit (Reg.prtI2cCmd p) 17 = true ∧ t.rBit (Reg.prtI2cCmd p) 18 = false ∧
        t.i2cRun.get (busOf p) = some { port := p, msgs := t.i2cMsgs p, fast := s.rBit (Reg.prtI2cMux p) 15 } ∧
        s.regsBut t [Reg.prtI2cCmd p])) ∧
    (s.hostOpen (Reg.prtI2cCmd p) = true → s.rBit (Reg.prtI2cCmd p) 17 = false → s.rBit (Reg.prtStat p) 16 = false →
      ∃ t, exec (.i2cReadCmd p v) s = .next t ∧ t.rBit (Reg.prtI2cCmd p) 17 = false ∧ t.rBit (Reg.prtI2cCmd p) 15 = true ∧
        t.rBit (Reg.prtCause p) 17 = true ∧ t.i2cRun = s.i2cRun) ∧
    (s.hostOpen (Reg.prtI2cCmd p) = true → s.rBit (Reg.prtI2cCmd p) 17 = true →
      exec (.i2cReadCmd p v) s = .next s ∧ exec (.i2cWriteCmd p v) s = .next s) ∧
    (∀ (ack : Bool) (data : BitVec 16), s.i2cOwner (busOf p) = some p →
      (∀ q : PortId, q.val / 6 = p.val / 6 → q ≠ p → s.rBit (Reg.prtI2cCmd q) 17 = false) →
      ∃ t, exec (.i2cComplete p ack data) s = .next t ∧ t.rBit (Reg.prtI2cCmd p) 17 = false ∧
        t.rBit (Reg.prtI2cCmd p) 16 = !ack ∧ t.rBit (Reg.prtCause p) 17 = true ∧ t.i2cRun.get (busOf p) = none ∧
        t.rFld (Reg.prtI2cData p) 0 16 =
          (if ack && s.rBit (Reg.prtI2cCmd p) 18 then
            (if s.rBit (Reg.prtI2cCmd p) 14 then data.toNat
              else data.toNat / 256 * 256 + s.rFld (Reg.prtI2cData p) 0 8)
          else s.rFld (Reg.prtI2cData p) 0 16) ∧
        s.regsBut t [Reg.prtI2cCmd p, Reg.prtI2cData p, Reg.prtCause p])

/-- R276, R297, R20: the MAC's checks in the order that counts each discarded frame once: runt, oversize, FCS or codeword error, MAC
control; then home course down and no free slot. A discarded frame has arrived all the same: its timestamp point moves the UI count
and its line has captured a real event. -/
def Sys2Proof.Machine.RxDiscardsRule : Prop :=
  ∀ (s : State) (p : PortId) (f : List Byte) (fcs cw : Bool) (m : RxMark), s.portRuns p = true →
    s.rBit (Reg.prtStat p) 18 = true → s.isVoid ⟨p.val, by omega⟩ = false →
    let long := s.rFld (Reg.prtMaxlen p) 0 12 < f.length + 4
    let counted := fun (k : Nat) => ∃ t, exec (.rxFrame p f fcs cw m) s = .next t ∧
      t.reg (Reg.prtCnt p k) = satAdd (s.reg (Reg.prtCnt p k)) 1 ∧ (t.port p).rxUi = (s.port p).rxUi + m.ui ∧
      (t.lines.get (rxLine p)).caps = (s.fretNut p :: (s.lines.get (rxLine p)).caps).take 8
    let only := fun (k : Nat) => ∃ t, exec (.rxFrame p f fcs cw m) s = .next t ∧ (s.rxArrive p m).onlyRegs t [Reg.prtCnt p k]
    (f.length < 60 → counted 1 ∧ only 1) ∧
    (60 ≤ f.length → long → counted 2 ∧ only 2) ∧
    (60 ≤ f.length → ¬ long → (fcs = false ∨ cw = true) → counted 0 ∧ only 0) ∧
    (60 ≤ f.length → ¬ long → fcs = true → cw = false → be16 f 12 = 0x8808 → counted 3 ∧ only 3) ∧
    (60 ≤ f.length → ¬ long → fcs = true → cw = false → be16 f 12 ≠ 0x8808 → s.homeUp (homeOf p) = false → counted 4) ∧
    (60 ≤ f.length → ¬ long → fcs = true → cw = false → be16 f 12 ≠ 0x8808 → s.homeUp (homeOf p) = true →
      s.freeSlots (homeOf p) = [] → counted 5)

/-- R86, R279, R281, R285, R288: a frame that passes every check and that no steering entry matches, under the default action DISPATCH with room in
its class, is stored whole in a free slot of the receive pool, and one descriptor joins the end of the class queue: its stamp, flags, port,
length and slot, and RULE 63. -/
def Sys2Proof.Machine.RxDispatchRule : Prop :=
  ∀ (s : State) (p : PortId) (f : List Byte) (m : RxMark), s.portRuns p = true →
    s.rBit (Reg.prtStat p) 18 = true → s.isVoid ⟨p.val, by omega⟩ = false → 60 ≤ f.length →
    f.length + 4 ≤ s.rFld (Reg.prtMaxlen p) 0 12 → f.length ≤ 2044 → be16 f 12 ≠ 0x8808 → s.homeUp (homeOf p) = true →
    s.freeSlots (homeOf p) ≠ [] → (∀ e, e < 64 → s.rBit (Reg.crsSteerAct (homeOf p) e) 19 = false) →
    s.rFld (Reg.crsSteerDefault (homeOf p)) 17 2 = 0 →
    let c := homeOf p
    let k : Fin 8 := Fin.ofNat 8 (s.rFld (Reg.crsSteerDefault c) 14 3)
    let stamp := (s.rxArrive p m).rxStamp p (s.rxPoint p m)
    ((s.course c).classes.get k).length < s.rFld (Reg.crsClassCfg c k) 0 12 →
    ∃ t slot d, exec (.rxFrame p f true false m) s = .next t ∧ slot ∈ s.freeSlots c ∧ slot ∈ (t.course c).used ∧
      (∀ i, i < f.length → (t.course c).buf.read? (slot * 2048 + i) = f[i]?) ∧
      (t.course c).classes.get k = (s.course c).classes.get k ++ [d] ∧
      ofWords (d.toList.take 4) = stamp.1.toNat ∧
      d.get 4 = BitVec.ofNat 20 (stamp.2.1.toNat * 2 ^ 19 + stamp.2.2.1.toNat * 2 ^ 18 +
        stamp.2.2.2.toNat * 2 ^ 17 + p.val * 4096 + f.length) ∧
      d.get 5 = BitVec.ofNat 20 (slot * 2048) ∧ d.get 10 = BitVec.ofNat 20 (63 * 2 ^ 14) ∧
      (∀ j, j ≠ c → t.course j = s.course j) ∧ t.ctxs = s.ctxs

/-- R286, R299: a write of an entry's action word commits its staged VAL and MASK with the action; other entries stay. KIND 3 is refused
with CFG_ERR. -/
def Obligations.SteeringCommit : Prop :=
  ∀ (s : State) (c : CourseId) (e : Fin 64) (v : Word), s.hostOpen (Reg.crsSteerAct c e) = true →
    (fld v 17 2 ≠ 3 → ∃ t, exec (.steerCommit c e v) s = .next t ∧
      t.regN (steerHeld c e) 10 = s.regN (Reg.steerBase c e) 10 ∧
      t.rBit (Reg.crsSteerAct c e) 19 = bitOf v 19 ∧ t.rFld (Reg.crsSteerAct c e) 17 2 = fld v 17 2 ∧
      t.rFld (Reg.crsSteerAct c e) 14 3 = fld v 14 3 ∧ t.rFld (Reg.crsSteerAct c e) 11 3 = fld v 11 3 ∧
      s.onlyRegs t ([Reg.crsSteerAct c e] ++ wordsAt (steerHeld c e) 10)) ∧
    (fld v 17 2 = 3 → ∃ t, exec (.steerCommit c e v) s = .next t ∧ t.rBit (Reg.crsBufCfg c) 19 = true ∧
      s.onlyRegs t [Reg.crsBufCfg c])


/-- R92, R273 to R275: what raises and lowers a port's link, and its reset.
Where the spec leaves a reading open it is the model's: notes/assumptions, entries 72, 132, 148. -/
def Obligations.PortLinks : Prop := Sys2Proof.Machine.LinkRisesRule ∧ Sys2Proof.Machine.LockLossRule ∧ Sys2Proof.Machine.PortResetsRule


/-- R277, R278: module presence and the two-wire accesses to a module. -/
def Obligations.Modules : Prop := Sys2Proof.Machine.ModuleSamplesRule ∧ Sys2Proof.Machine.ModuleAccessRule


/-- R20, R86, R276, R279, R281, R285, R288, R297: a received frame, discarded or queued.
Where the spec leaves a reading open it is the model's: notes/assumptions, entries 127, 128. -/
def Obligations.FrameReception : Prop := Sys2Proof.Machine.RxDiscardsRule ∧ Sys2Proof.Machine.RxDispatchRule

/-! ### Transmit, bandwidth windows and SyncE -/

/-- R87, R102, R292, R293: with one plain frame at the head of the only queue that holds frames, and no launch frame, the fill stage takes
it: its bytes are those of its slot, padded with zero bytes to 60, and its completion carries the transmit stamp with REPORT and
nothing without it. The frame's end then completes the send and counts it; a departure of this tick that is yet to be converted
(R97) is converted first. -/
def Sys2Proof.Machine.PlainTransmitRule : Prop :=
  (∀ (s : State) (p : PortId) (m : TxMark) (c : CourseId) (e : Send) (es : List Send), s.portRuns p = true → s.fretIn p = true →
    s.isVoid ⟨24 + p.val, by omega⟩ = false → (s.port p).depart = [] → (s.port p).stage = [] → (s.port p).launch = [] →
    (s.port p).queues.get c = e :: es → (∀ d, d ≠ c → (s.port p).queues.get d = []) → e.kind = 0 → e.course = c →
    s.badByte c (e.slot * 2048) e.len = none →
    ∃ t x, exec (.txFillEntry p m) s = .next t ∧ (t.port p).queues.get c = es ∧ (t.port p).fill = (s.port p).fill ++ [x] ∧
      x.send = e ∧ x.d.status = 0 ∧ x.conv = none ∧ (t.port p).txWord = (s.port p).txWord + m.word ∧ x.bytes.length = max 60 e.len ∧
      (∀ i b, i < e.len → (s.course c).buf.read? ((e.slot * 2048 + i) % 1048576) = some b → x.bytes[i]? = some b) ∧
      (∀ i, e.len ≤ i → i < 60 → x.bytes[i]? = some 0) ∧
      (e.report = true → x.d.t = (s.txStamp p (s.txPoint p m)).1) ∧ (e.report = false → x.d.t = 0) ∧
      (∀ q, q ≠ p → t.port q = s.port q) ∧ t.courses = s.courses) ∧
  (∀ (s : State) (p : PortId) (f : Filling) (fs : List Filling), (s.port p).fill = f :: fs →
    ∃ t, exec (.txFrameDone p) s = .next t ∧ (t.port p).fill = fs.map (s.convert p) ∧
      (t.course f.send.course).sent = (s.course f.send.course).sent ++ [{ send := f.send, d := (s.convert p f).d }] ∧
      ((t.cnt (Cnt.prt p 2)).val = (s.cnt (Cnt.prt p 2)).val + BitVec.ofNat 60 (f.bytes.length + 4)) ∧
      ((t.cnt (Cnt.prt p 3)).val = (s.cnt (Cnt.prt p 3)).val + 1) ∧
      ((∀ g ∈ f :: fs, s.fillNoTun g = false) → t = { s with ports := t.ports, courses := t.courses, counters := t.counters }))

/-- R152, R294, R296: launch plucks. Each that is due 256 ticks before its target hands its frame to the launch stage; the first frame of the
stage departs at a start slot within the tolerance, and else completes LATE with the ticks from its target, rounded up. -/
def Sys2Proof.Machine.LaunchTimeRule : Prop :=
  ∀ (s : State) (p : PortId),
    (∃ t, exec (.launchPluckFire p) s = .next t ∧
      (t.port p).launch = (s.port p).launch.filter (fun e => decide ((s.nut.toNat : Int) < launchTick e.target)) ∧
      (∀ e, e ∈ (t.port p).stage ↔ e ∈ (s.port p).stage ∨ (e ∈ (s.port p).launch ∧ launchTick e.target ≤ s.nut.toNat)) ∧
      (∀ q, q ≠ p → t.port q = s.port q) ∧ t = { s with ports := t.ports }) ∧
    (∀ (slot : Nut) (e : Send) (es : List Send), (s.port p).stage = e :: es → s.fretIn p = true → e.target.toNat ≤ slot.toNat →
      (slot.toNat ≤ e.target.toNat + 65536 * s.launchTol p → ∃ t, exec (.launchDepart p slot) s = .next t ∧
        (t.port p).stage = es ∧ (t.port p).depart = (s.port p).depart ++ [e] ∧ t = { s with ports := t.ports }) ∧
      (e.target.toNat + 65536 * s.launchTol p < slot.toNat → ∃ t, exec (.launchDepart p slot) s = .next t ∧
        (t.port p).stage = es ∧ (t.port p).depart = (s.port p).depart ∧
        t.reg (Reg.prtCnt p 6) = satAdd (s.reg (Reg.prtCnt p 6)) 1 ∧
        (t.course e.course).sent = (s.course e.course).sent ++ [{ send := e, d := (doneOf e 3 ((slot.toNat - e.target.toNat + 163839) / 163840) true) }] ∧
        s.regsBut t [Reg.prtCnt p 6, Reg.prtCause p]))

/-- R426, R431: the bandwidth monitor. CLR crosses to the time island, one write in flight and the newest behind it, and the
counters are 0 at the end of its effect tick, the tick after it arrives (arrival on the tick of the write is the model's choice, log
entry 107); a legal LEN restarts the window
with its six counters at 0, and another sets CFG_ERR; a window that ends writes its totals and rates. -/
def Obligations.Bandwidth : Prop :=
  ∀ (s : State) (p : PortId),
    let a := Reg.pmcPrtBw p
    let clears := (List.range 4).map (Cnt.prt p)
    (∀ q n, Sparse.find s.cntReq a = some q → q.cnts = clears → q.at_ = some n → n ≠ s.nut →
      ∀ k, k < 4 → s.cntEndTick.cnt (Cnt.prt p k) = Counter.zero) ∧
    (s.hostOpen (Reg.pmcPrtBw p) = true →
      (∀ q, Sparse.find s.cntReq a = some q → q.at_ ≠ none → ∃ t, exec (.portCounterClr p) s = .next t ∧
        Sparse.find t.cntReq a = some { q with next := some (s.reg a) } ∧
        t = { s with cntReq := t.cntReq, regs := t.regs, setNow := t.setNow } ∧ s.regsBut t []) ∧
      (Sparse.find s.cntReq a = none → s.isVoid 49 = false → ∃ t, exec (.portCounterClr p) s = .next t ∧
        Sparse.find t.cntReq a = some { cnts := clears, old := s.reg a, val := s.reg a, at_ := some s.nut, next := none } ∧
        t = { s with cntReq := t.cntReq, flight := t.flight, regs := t.regs, setNow := t.setNow } ∧ s.regsBut t []) ∧
      (∀ v, bitOf v 19 = false → 1 ≤ fld v 0 14 → fld v 0 14 ≤ 10000 → ∃ t, exec (.bwLenWrite p v) s = .next t ∧
        t.rFld (Reg.pmcPrtBw p) 0 14 = fld v 0 14 ∧ (∀ k, 4 ≤ k → k < 10 → t.cnt (Cnt.prt p k) = Counter.zero) ∧
        (∀ n, (n < Cnt.prt p 4 ∨ Cnt.prt p 10 ≤ n) → t.cnt n = s.cnt n) ∧ (t.port p).sums = BwSums.zero) ∧
      (∀ v, bitOf v 19 = false → (fld v 0 14 = 0 ∨ 10000 < fld v 0 14) → ∃ t, exec (.bwLenWrite p v) s = .next t ∧
        t.rBit (Reg.prtCtrl p) 11 = true ∧ s.onlyRegs t [Reg.prtCtrl p])) ∧
    (s.nutRun = true → s.nut.toNat % (s.bwSpan p).toNat = 0 → reached s.nut ((s.port p).bwFrom + s.bwSpan p) = true →
      ∃ t, exec (.bwWindowEnd p) s = .next t ∧
        (t.cnt (Cnt.prt p 4)).val = BitVec.ofNat 60 (s.port p).sums.rxB ∧
        (t.cnt (Cnt.prt p 5)).val = BitVec.ofNat 60 (s.port p).sums.rxF ∧
        (t.cnt (Cnt.prt p 6)).val = BitVec.ofNat 60 (s.port p).sums.txB ∧
        (t.cnt (Cnt.prt p 7)).val = BitVec.ofNat 60 (s.port p).sums.txF ∧
        (t.cnt (Cnt.prt p 8)).val = BitVec.ofNat 60 (roundHaz (((s.port p).sums.rxB * 8000 : Nat) : Int)
          ((s.rFld (Reg.pmcPrtBw p) 0 14 : Nat) : Int)).toNat ∧
        (t.port p).sums = BwSums.zero ∧ (t.port p).bwFrom = s.nut ∧ t = { s with counters := t.counters, ports := t.ports })

/-- R101, R208: the SyncE synthesiser. A write stores EN and the groups' references; a group whose reference changes loses its transmit
lock: TX_VALID clears and the frames of its ports' fill stages end ABORT; LOCK reads 1 once the PLL of an enabled synthesiser locks. -/
def Sys2Proof.Machine.SyncERule : Prop :=
  (∀ (s : State) (v : Word), s.hostOpen Reg.brgSynceCtrl = true → ∃ t, exec (.synceCtrlWrite v) s = .next t ∧
    t.rBit Reg.brgSynceCtrl 19 = bitOf v 19 ∧ t.rFld Reg.brgSynceCtrl 0 4 = fld v 0 4 ∧
    (∀ p : PortId, bitOf (s.reg Reg.brgSynceCtrl) (p.val / 6) ≠ bitOf v (p.val / 6) → (t.port p).fill = [] ∧
      t.rBit (Reg.fretStat p) 18 = false) ∧
    (∀ p : PortId, bitOf (s.reg Reg.brgSynceCtrl) (p.val / 6) = bitOf v (p.val / 6) → t.port p = s.port p)) ∧
  (∀ s : State, s.rBit Reg.brgSynceCtrl 19 = true → ∃ t, exec .synceSynthLock s = .next t ∧
    t.rBit Reg.brgSynceCtrl 18 = true ∧ s.onlyRegs t [Reg.brgSynceCtrl])


/-- R87, R102, R152, R292 to R294, R296: a plain frame and one with a launch target, sent.
Where the spec leaves a reading open it is the model's: notes/assumptions, entries 130, 188. -/
def Obligations.FrameTransmission : Prop := Sys2Proof.Machine.PlainTransmitRule ∧ Sys2Proof.Machine.LaunchTimeRule


/-- R91, R101, R208: a port's frequency windows and the recovered clock of SyncE. -/
def Obligations.RecoveredClocks : Prop := Sys2Proof.Machine.FretWindowsRule ∧ Sys2Proof.Machine.SyncERule

/-! ### Dispatch, starts and course states -/

/-- R307, R308: what a context holds that has taken a work item: RUN at its entry with the privilege the entry gives, G51 on as the item
fills them, its flags clear, its stack empty, and G0 to G50 as they were. -/
def Sys2Proof.Machine.State.tookItem (s t : State) (x : CtxId) (entry : Word) (g : List Word) : Prop :=
  (t.ctx x).mode = .run ∧ (t.ctx x).pc = BitVec.ofNat 15 (fld entry 0 15) ∧ (t.ctx x).sys = bitOf entry 19 ∧
  (t.ctx x).fl = Flags.clear ∧ (t.ctx x).stack = [] ∧ (t.ctx x).issued = 0 ∧ (t.ctx x).rd 51 g.length = g ∧
  (∀ i, i < 51 → (t.ctx x).r i = (s.ctx x).r i) ∧ (∀ y, y ≠ x → t.ctx y = s.ctx y)

/-- R144, R289, R307, R308, R338: an idle context of a running course takes, first, the oldest pluck start request; then the host's start; then
a descriptor of the class that R289 serves, here the only one that holds any, with its slot and PW. -/
def Sys2Proof.Machine.DispatchRule : Prop :=
  ∀ (s : State) (x : CtxId), s.mayTake x = true →
    let c := courseOf x
    (∀ q qs, (s.course c).startQ = q :: qs → ∃ t, exec (.pluckStartDispatch x) s = .next t ∧ (t.course c).startQ = qs ∧
      s.tookItem t x q.entry (0x40000 :: toWords 4 q.nut.toNat ++ [q.arg1, BitVec.ofNat 20 q.pluck.val] ++ List.replicate 6 0)) ∧
    ((s.course c).startQ = [] → (s.course c).hostReq = true → ∃ t, exec (.hostStartDispatch x) s = .next t ∧
      (t.course c).hostReq = false ∧
      s.tookItem t x (s.reg (Reg.crsHostStart c)) (0x80000 :: s.reg (Reg.crsHostArg c) :: List.replicate 11 0)) ∧
    (∀ (k : Fin 8) (d : Vector Word 12) (ds : List (Vector Word 12)), (s.course c).startQ = [] → (s.course c).hostReq = false →
      (s.course c).classes.get k = d :: ds → (∀ j, j ≠ k → (s.course c).classes.get j = []) →
      s.servedBy c k (strOf x) = true → ∃ t, exec (.descriptorDispatch x) s = .next t ∧
        (t.course c).classes.get k = ds ∧ s.tookItem t x (s.reg (Reg.crsClassEntry c k)) (0 :: d.toList) ∧
        (t.ctx x).pw = d.get 5 ∧ (t.ctx x).slot = some ((d.get 5).toNat / 2048) ∧
        t.reg (Reg.crsClassDisp c k) = s.reg (Reg.crsClassDisp c k) + 1) ∧
    ((s.course c).startQ ≠ [] → exec (.hostStartDispatch x) s = .next s ∧ exec (.descriptorDispatch x) s = .next s)

/-- R318, R319, R338: the host's commands to a running course. START queues one start, refused with CFG_ERR while one waits; EVT raises
HOST: its count advances where no context waits for it, and a waiting context takes it at once with its wake record. -/
def Sys2Proof.Machine.HostCommandsRule : Prop :=
  ∀ (s : State) (c : CourseId), s.hostOpen (Reg.crsHostCmd c) = true → s.crsState c = CS.run →
    ((s.course c).hostReq = false → ∃ t, exec (.hostStart c) s = .next t ∧ (t.course c).hostReq = true ∧
      t = { s with courses := t.courses } ∧ ∀ d, d ≠ c → t.course d = s.course d) ∧
    ((s.course c).hostReq = true → ∃ t, exec (.hostStart c) s = .next t ∧ t.rBit (Reg.crsRun c) 13 = true ∧
      s.onlyRegs t [Reg.crsRun c]) ∧
    (s.pendOf c 10 < 65535 → s.waiterOf c 10 = none → ∃ t, exec (.hostEvent c) s = .next t ∧
      t.pendOf c 10 = s.pendOf c 10 + 1 ∧ t = { s with regs := t.regs, setNow := t.setNow, counters := t.counters } ∧
      s.regsBut t [Reg.crsEvt c 10]) ∧
    (∀ x w, s.pendOf c 10 = 0 → s.waiterOf c 10 = some x → (s.ctx x).waiting = some w → ∃ t, exec (.hostEvent c) s = .next t ∧
      t.pendOf c 10 = 0 ∧ (t.ctx x).mode = .run ∧ (t.ctx x).waiting = none ∧ (t.ctx x).fl.e = true ∧ (t.ctx x).fl.t = false ∧
      (t.ctx x).rd w.dst.toNat 8 = [10, 0, 0, 0, 0, 0, 0, 0] ∧ ∀ y, y ≠ x → t.ctx y = s.ctx y)

/-- R334, R335: the states of a course. DRAIN takes RUN to DRAINING and is refused elsewhere; DRAINED follows once every context is quiet; after
CRS_DRAIN_TMO ms what still works is abandoned and counted; GO takes DRAINED or ROM to RUN with idle contexts, G0 to G50 at 0, and
no pending event. -/
def Sys2Proof.Machine.CourseStatesRule : Prop :=
  ∀ (s : State) (c : CourseId),
    (s.hostOpen (Reg.crsRun c) = true → s.loadHolds c = false →
      (s.crsState c = CS.run → ∃ t, exec (.courseDrain c) s = .next t ∧ t.crsState c = CS.draining ∧
        (t.course c).drainAt = some s.nut ∧ ∀ d, d ≠ c → t.crsState d = s.crsState d ∧ t.course d = s.course d) ∧
      (s.crsState c ≠ CS.run → ∃ t, exec (.courseDrain c) s = .next t ∧ t.rBit (Reg.crsRun c) 13 = true ∧
        t.crsState c = s.crsState c ∧ s.onlyRegs t [Reg.crsRun c]) ∧
      (s.crsState c = CS.drained ∨ s.crsState c = CS.rom → ∃ t, exec (.courseGo c) s = .next t ∧ t.crsState c = CS.run ∧
        (∀ e, e < 11 → t.pendOf c e = 0) ∧
        (∀ x, courseOf x = c → (t.ctx x).mode = .idle ∧ ∀ i, i ≤ 50 → (t.ctx x).r i = 0) ∧
        (∀ x, courseOf x ≠ c → t.ctx x = s.ctx x)) ∧
      (s.crsState c = CS.run → ∃ t, exec (.courseGo c) s = .next t ∧ t.rBit (Reg.crsRun c) 13 = true ∧
        s.onlyRegs t [Reg.crsRun c])) ∧
    (s.crsState c = CS.draining → s.allQuiet c = true → ∃ t, exec (.courseDrained c) s = .next t ∧ t.crsState c = CS.drained ∧
      t.rBit (Reg.crsCause c) 14 = true ∧ t = { s with regs := t.regs, setNow := t.setNow, courses := t.courses } ∧
      s.regsBut t [Reg.crsRun c, Reg.crsCause c]) ∧
    (s.crsState c = CS.draining → s.allQuiet c = false → exec (.courseDrained c) s = .next s) ∧
    (∀ n, s.crsState c = CS.draining → (s.course c).drainAt = some n →
      reached s.nut (n + msNut (s.rFld (Reg.crsDrainTmo c) 0 16)) = true → ∃ t, exec (.drainTimeout c) s = .next t ∧
        t.crsState c = CS.drained ∧ (∀ x, courseOf x = c → (t.ctx x).mode = .idle) ∧
        t.reg (Reg.crsDrainKill c) = satAdd (s.reg (Reg.crsDrainKill c)) ((courseCtxs c).filter s.busyCtx).length ∧
        ∀ x, courseOf x ≠ c → t.ctx x = s.ctx x)


/-- R144, R289, R307, R308, R318, R319, R334, R335, R338: a course's dispatch, its host commands and its states.
Where the spec leaves a reading open it is the model's: notes/assumptions, entries 8, 144, 147. -/
def Obligations.CourseControl : Prop := Sys2Proof.Machine.DispatchRule ∧ Sys2Proof.Machine.HostCommandsRule ∧ Sys2Proof.Machine.CourseStatesRule

/-! ### DMA rings, the dump engine, the legacy window and key slots -/

/-- R513, R516: the control of a ring. EN written from 0 to 1 with a legal SZ takes SZ and sets the ring's counters to 0; an illegal SZ, or a write
of EN = 1 to an enabled ring, is refused with CFG_ERR; EN written to 0 stops it and keeps its counters. -/
def Sys2Proof.Machine.RingControlRule : Prop :=
  ∀ (s : State) (r : RingId) (v : Word),
    (s.hostOpen (Reg.devRxCtrl r) = true → bitOf v 19 = true → s.rBit (Reg.devRxCtrl r) 19 = false →
      (12 ≤ fld v 0 5 → fld v 0 5 ≤ 23 → ∃ t, exec (.ringEnable (.rx r) v) s = .next t ∧ t.rBit (Reg.devRxCtrl r) 19 = true ∧
        t.rFld (Reg.devRxCtrl r) 0 5 = fld v 0 5 ∧ t.reg (Reg.devRxWr r) = 0 ∧ t.reg (Reg.devRxRd r) = 0 ∧
        s.onlyRegs t [Reg.devRxCtrl r, Reg.devRxWr r, Reg.devRxRd r]) ∧
      ((fld v 0 5 < 12 ∨ 23 < fld v 0 5) → ∃ t, exec (.ringEnable (.rx r) v) s = .next t ∧ t.rBit Reg.devHostCause 19 = true ∧
        s.onlyRegs t [Reg.devHostCause])) ∧
    (s.hostOpen (Reg.devTxCtrl r) = true → bitOf v 19 = true → s.rBit (Reg.devTxCtrl r) 19 = false →
      4 ≤ fld v 0 4 → fld v 0 4 ≤ 12 → ∃ t, exec (.ringEnable (.tx r) v) s = .next t ∧ t.rBit (Reg.devTxCtrl r) 19 = true ∧
        t.rFld (Reg.devTxCtrl r) 0 4 = fld v 0 4 ∧ t.reg (Reg.devTxTail r) = 0 ∧ t.reg (Reg.devTxHead r) = 0 ∧
        t.reg (Reg.devTxDone r) = 0 ∧ t.txRings.get r = TxRing.cold ∧ ∀ q, q ≠ r → t.txRings.get q = s.txRings.get q) ∧
    (s.hostOpen (Reg.devRxCtrl r) = true → bitOf v 19 = false → s.rBit (Reg.devRxCtrl r) 19 = true →
      ∃ t, exec (.ringDisable (.rx r) v) s = .next t ∧ t.rBit (Reg.devRxCtrl r) 19 = false ∧ s.onlyRegs t [Reg.devRxCtrl r]) ∧
    (s.hostOpen (Reg.devTxCtrl r) = true → bitOf v 19 = false → s.rBit (Reg.devTxCtrl r) 19 = true →
      ∃ t, exec (.ringDisable (.tx r) v) s = .next t ∧ t.rBit (Reg.devTxCtrl r) 19 = false ∧ s.onlyRegs t [Reg.devTxCtrl r])

/-- R117, R290, R424, R512, R513: records of the receive rings. A pick entry or punt that the ring has room for, with no pad needed, is written at
the ring's offset and WR advances by its units; a punt without room is dropped and counted, and its slot is released. -/
def Sys2Proof.Machine.ReceiveRecordsRule : Prop :=
  ∀ (s : State) (r : RingId),
    (∀ (e : Vector Word 5) (p : PickId), s.rxRoom r 16 = true → s.rxPad r 16 = 0 → ∃ t, exec (.rxRingRecord r (.pick e p)) s = .next t ∧
      t.hostHolds (s.hostBase (Reg.devRxBase r) + s.rxOff r) (pickRecord (ofWords e.toList) p.val) ∧
      t.reg (Reg.devRxWr r) = s.reg (Reg.devRxWr r) + 1 ∧ t.rBit Reg.devHostCause (8 + r.val) = true ∧
      t = { s with regs := t.regs, setNow := t.setNow, hostMem := t.hostMem } ∧ s.regsBut t [Reg.devRxWr r, Reg.devHostCause]) ∧
    (∀ (c : CourseId) (u : Punt) (us : List Punt), (s.course c).punts = u :: us → u.slot = none → u.ring = r →
      let bs := puntRecord c.val (s.rxLost.get r) u.desc.toList u.frame
      (s.rxRoom r bs.length = true → s.rxPad r bs.length = 0 → ∃ t, exec (.puntCopy c) s = .next t ∧ (t.course c).punts = us ∧
        t.hostHolds (s.hostBase (Reg.devRxBase r) + s.rxOff r) bs ∧
        t.reg (Reg.devRxWr r) = s.reg (Reg.devRxWr r) + BitVec.ofNat 20 (bs.length / 16) ∧ t.rxLost.get r = false) ∧
      (s.rxRoom r bs.length = false → ∃ t, exec (.puntCopy c) s = .next t ∧ (t.course c).punts = us ∧ t.hostMem = s.hostMem ∧
        t.reg (Reg.crsPuntDrop c r) = satAdd (s.reg (Reg.crsPuntDrop c r)) 1 ∧ t.rxLost.get r = true)) ∧
    (∀ (c : CourseId) (u : Punt) (us : List Punt) (k : Nat), (s.course c).punts = u :: us → u.slot = some k → u.ring = r →
      s.badByte c (k * 2048) u.frame.length = none →
      s.rxRoom r (puntRecord c.val (s.rxLost.get r) u.desc.toList u.frame).length = false →
      ∃ t, exec (.puntCopy c) s = .next t ∧ (t.course c).used = (s.course c).used.erase k)

/-- R291, R514, R515: transmit rings. A doorbell takes a TAIL that leaves at most 2^SZ entries past DONE, and refuses another with CFG_ERR. A fetched
entry takes a receive slot and its frame, and joins the port's queue as a plain send; one with PORT above 23 completes with status 7. A
completion is written to bytes 16 to 31 of its entry and DONE advances past it where it is the next. -/
def Sys2Proof.Machine.TransmitRingsRule : Prop :=
  ∀ (s : State) (t0 : RingId),
    (∀ v, s.hostOpen (Reg.devTxTail t0) = true →
      let ahead := (fld v 0 16 + 65536 - s.rFld (Reg.devTxDone t0) 0 16) % 65536
      (ahead ≤ 2 ^ s.rFld (Reg.devTxCtrl t0) 0 4 → ∃ t, exec (.txDoorbell t0 v) s = .next t ∧
        t.reg (Reg.devTxTail t0) = BitVec.ofNat 20 (fld v 0 16) ∧ s.onlyRegs t [Reg.devTxTail t0]) ∧
      (2 ^ s.rFld (Reg.devTxCtrl t0) 0 4 < ahead → ∃ t, exec (.txDoorbell t0 v) s = .next t ∧ t.rBit Reg.devHostCause 19 = true ∧
        s.onlyRegs t [Reg.devHostCause])) ∧
    (∀ (e : TxEntry) (f : List Byte) (p : PortId), s.mayFetch t0 = true → e.port.toNat = p.val → 60 ≤ e.len.toNat → e.len.toNat ≤ 2044 →
      f.length = e.len.toNat → e.len.toNat + 4 ≤ s.rFld (Reg.prtMaxlen p) 0 12 → s.rBit (Reg.prtStat p) 19 = true →
      ((s.port p).queues.get (ringCourse t0)).length < 32 → s.freeSlots (ringCourse t0) ≠ [] →
      (∀ k ∈ s.freeSlots (ringCourse t0), k ∉ (s.course (ringCourse t0)).sending) →
      ∃ t x, exec (.txRingFetch t0 e f false) s = .next t ∧
        (t.port p).queues.get (ringCourse t0) = (s.port p).queues.get (ringCourse t0) ++ [x] ∧ x.kind = 0 ∧ x.len = e.len.toNat ∧
        x.slot ∈ s.freeSlots (ringCourse t0) ∧ x.ring = some (t0, s.rFld (Reg.devTxHead t0) 0 16) ∧
        (∀ i, i < f.length → (t.course (ringCourse t0)).buf.read? (x.slot * 2048 + i) = f[i]?) ∧
        t.rFld (Reg.devTxHead t0) 0 16 = (s.rFld (Reg.devTxHead t0) 0 16 + 1) % 65536) ∧
    (∀ (e : TxEntry) (f : List Byte), s.mayFetch t0 = true → 23 < e.port.toNat → ∃ t, exec (.txRingFetch t0 e f false) s = .next t ∧
      (t.txRings.get t0).wait = (s.txRings.get t0).wait ++ [(s.rFld (Reg.devTxHead t0) 0 16, ringCompletion false (ringError 7))] ∧
      t.ports = s.ports ∧ t.courses = s.courses) ∧
    (∀ (bs : List Byte) (ws : List (Nat × List Byte)), (s.txRings.get t0).wait = (s.rFld (Reg.devTxDone t0) 0 16, bs) :: ws →
      (s.txRings.get t0).comp = [] → s.dmaUp = true → ∃ t, exec (.txRingComplete t0) s = .next t ∧
        t.hostHolds (s.hostBase (Reg.devTxBase t0) +
          32 * (s.rFld (Reg.devTxDone t0) 0 16 % 2 ^ s.rFld (Reg.devTxCtrl t0) 0 4) + 16) bs ∧
        t.rFld (Reg.devTxDone t0) 0 16 = (s.rFld (Reg.devTxDone t0) 0 16 + 1) % 65536 ∧ (t.txRings.get t0).wait = ws ∧
        t.rBit Reg.devHostCause t0.val = true)

/-- R433, R434, R436: the dump record that is due is written to its entry of the host's ring, WR advances and RECORD is set; where DMA is
shut the record is lost and nothing is written. A read of PMC_LEG_VAL0 captures the selected counter, and one of PMC_LEG_VAL2 with
AUTOINC moves NUM on. -/
def Sys2Proof.Machine.DumpsAndLegacyRule : Prop :=
  ∀ s : State,
    (s.rBit Reg.dmpStat 18 = true → s.dmaUp = true →
      (s.rFld Reg.dmpWr 0 16 + 65536 - s.rFld Reg.dmpRd 0 16) % 65536 < 2 ^ s.rFld Reg.dmpCtrl 0 4 →
      ∃ t, exec .dumpRecordWrite s = .next t ∧
        t.hostHolds (s.hostBase Reg.dmpBase + 8192 * (s.rFld Reg.dmpWr 0 16 % 2 ^ s.rFld Reg.dmpCtrl 0 4))
          (recordBytes s.bank s.dumpLost) ∧
        t.rFld Reg.dmpWr 0 16 = (s.rFld Reg.dmpWr 0 16 + 1) % 65536 ∧ t.rBit Reg.dmpCause 19 = true ∧
        t.rBit Reg.dmpStat 18 = false ∧ t.dumpLost = false ∧ s.regsBut t [Reg.dmpWr, Reg.dmpCause, Reg.dmpStat]) ∧
    (s.rBit Reg.dmpStat 18 = true → s.dmaUp = false → ∃ t, exec .dumpRecordWrite s = .next t ∧ t.hostMem = s.hostMem ∧
      t.dumpLost = true ∧ t.rBit Reg.dmpStat 18 = false ∧ t.reg Reg.dmpWr = s.reg Reg.dmpWr) ∧
    (s.hostReads Reg.pmcLegVal = true → cntValid (s.rFld Reg.pmcLegSel 0 12) = true →
      ∃ t, exec .legWindowRead s = .next t ∧ t.reg60 Reg.pmcLegVal = (s.cntNow (s.rFld Reg.pmcLegSel 0 12)).val ∧
        t.counters = s.counters) ∧
    (s.hostReads Reg.pmcLegVal = true → s.rBit Reg.pmcLegSel 19 = true → ∃ t, exec .legVal2Read s = .next t ∧
      t.rFld Reg.pmcLegSel 0 12 = legNext (s.rFld Reg.pmcLegSel 0 12) ∧ s.onlyRegs t [Reg.pmcLegSel]) ∧
    (s.hostReads Reg.pmcLegVal = true → s.rBit Reg.pmcLegSel 19 = false → exec .legVal2Read s = .next s)

/-- R517, R518: key slots. While PD9 is on a KEY_CMD loads the slot with KIND and the first bytes of the staging words, or empties it for
KIND 0, and clears the staging words either way; no other slot changes. While PD9 is off, for an HMAC key of a length outside 1
to 64 and for KIND 5 to 7, it is refused with KEY_REJ and clears the staging words all the same. -/
def Obligations.KeySlots : Prop :=
  ∀ (s : State) (k : Fin 256), s.hostOpen Reg.keyCmd = true →
    let staged := fun (t : State) => ∀ i, i < 32 → t.reg (Reg.keyStage i) = 0
    let loads := fun (c : Instr) (kind n : Nat) => ∃ t, exec c s = .next t ∧
      Sparse.find t.keys k = some { kind := kind, bytes := s.stagedKey n } ∧ staged t ∧
      (∀ j, j ≠ k.val → Sparse.find t.keys j = Sparse.find s.keys j) ∧ t = { s with regs := t.regs, setNow := t.setNow, keys := t.keys }
    let refused := fun (c : Instr) => ∃ t, exec c s = .next t ∧ t.keys = s.keys ∧ staged t ∧ t.rBit Reg.devHostCause 18 = true
    (s.powered 9 = true → loads (.keyCmdCmac128 k) 1 16 ∧ loads (.keyCmdCmac256 k) 2 32 ∧ loads (.keyCmdSiv k) 3 32 ∧
      (∀ len : BitVec 7, 1 ≤ len.toNat → len.toNat ≤ 64 → loads (.keyCmdHmac k len) 4 len.toNat) ∧
      (∀ len : BitVec 7, len.toNat = 0 ∨ 64 < len.toNat → refused (.keyCmdHmac k len)) ∧
      ∃ t, exec (.keyCmdEmpty k) s = .next t ∧ Sparse.find t.keys k = none ∧ staged t ∧
        ∀ j, j ≠ k.val → Sparse.find t.keys j = Sparse.find s.keys j) ∧
    (s.powered 9 = false → refused (.keyCmdEmpty k) ∧ refused (.keyCmdCmac128 k) ∧ refused (.keyCmdCmac256 k) ∧
      refused (.keyCmdSiv k) ∧ ∀ len, refused (.keyCmdHmac k len)) ∧
    ∀ v, 5 ≤ fld v 17 3 → refused (.registerWrite Reg.keyCmd v true)


/-- R117, R290, R424, R433, R434, R436, R512, R513: receive records, dumps and the legacy counter window.
Where the spec leaves a reading open it is the model's: notes/assumptions, entries 134, 135. -/
def Obligations.ReceiveRecordsAndDumps : Prop := Sys2Proof.Machine.ReceiveRecordsRule ∧ Sys2Proof.Machine.DumpsAndLegacyRule


/-- R291, R513 to R516: the control of a host ring, and the transmit rings.
Where the spec leaves a reading open it is the model's: notes/assumptions, entry 133. -/
def Obligations.HostRings : Prop := Sys2Proof.Machine.RingControlRule ∧ Sys2Proof.Machine.TransmitRingsRule

/-! ### Picks, regression units, house channels and the panel -/

/-- Word 4 of a queue entry (R112). -/
def Sys2Proof.Machine.entryWord4 (e : BitVec 100) : Word := BitVec.ofNat 20 (e.toNat / 2 ^ 80)

/-- The pick `x` after a passed edge on a tick `n` with prescaler `k` (R108, R111, R113). -/
def Sys2Proof.Machine.Pick.passedAt (x : Pick) (n : Nut) (k : Nat) : Pick := { x with seen := some n, skip := 2 ^ k - 1, seq := x.seq + 1 }

/-- R112: `e` is the stamp entry of the stamp `v` with these flags and SEQ. -/
def Sys2Proof.Machine.isStampEntry (e : BitVec 100) (v : Nut) (single calw tg ovf : Bool) (seq : BitVec 12) : Prop :=
  e.toNat % 2 ^ 80 = v.toNat ∧ bitOf (entryWord4 e) 19 = false ∧ bitOf (entryWord4 e) 18 = single ∧ bitOf (entryWord4 e) 17 = calw ∧
    bitOf (entryWord4 e) 16 = tg ∧ bitOf (entryWord4 e) 15 = ovf ∧ bitOf (entryWord4 e) 14 = true ∧ fld (entryWord4 e) 12 2 = 0 ∧
    fld (entryWord4 e) 0 12 = seq.toNat

/-- R67, R72, R108, R111 to R114: an edge of pick `p`. While EN is 0, and on the edge of the other direction, nothing happens; the prescaler
counts off the edges between passed ones. A passed edge counts in SEQ; within 3 ns of the last accepted stamp, or shown by one line
alone within two ticks after a real event of the pick (the model's reading of R70, log entry 169), it is discarded and counted; else
its stamp, the mean of both lines' stamps, each of its own capture tick, or the stamp of the one line that saw it, enters the queue under STREAM with OVF where a loss
waits to be shown, or finds the queue full and is counted in PICK_QDROP. -/
def Sys2Proof.Machine.PickEdgesRule : Prop :=
  ∀ (s : State) (p : PickId), s.nutRun = true →
    let x := s.picks.get p
    (∀ rising a b, (s.rBit (Reg.pickCtrl p) 19 = false ∨ rising = bitOf (s.pickCtrlNow p) 18) → s.rBit (Reg.pickStat p) 19 = false →
      exec (.pickEdge p rising a b) s = .next s) ∧
    (s.rBit (Reg.pickCtrl p) 19 = true → s.rBit (Reg.pickStat p) 19 = false → (∀ r : SlotId, ¬ (s.rsSrc r = 1 ∧ s.rsUnit r = p.val)) →
      (∀ a b, 0 < x.skip → ∃ t, exec (.pickEdge p (!bitOf (s.pickCtrlNow p) 18) a b) s = .next t ∧
        t.picks.get p = { x with skip := x.skip - 1 } ∧ (∀ q, q ≠ p → t.picks.get q = s.picks.get q) ∧ t = { s with picks := t.picks }) ∧
      ∀ (a : Capture) (b : Option Capture), x.skip = 0 → x.gate = none → x.closed = [] → s.isStop p = false →
        (∀ k : PickId, ¬ (s.isStop k = true ∧ s.rFld (Reg.pickIvl k) 15 3 = p.val)) →
        (s.lines.get (lineA p)).hitAt ≠ some (s.captureTick a) → s.tdcBad (lineA p) a.code.val (s.captureTick a) = false →
        a.code.val ≠ 383 →
        (∀ c, b = some c → (s.lines.get (lineB p)).hitAt ≠ some (s.captureTick c) ∧
          s.tdcBad (lineB p) c.code.val (s.captureTick c) = false ∧ c.code.val ≠ 383) →
        let sa := s.lineStamp (lineA p) a.code (s.captureTick a)
        let v := match b with
          | none => sa
          | some c => BitVec.ofNat 80 ((sa.toNat + (s.lineStamp (lineB p) c.code (s.captureTick c)).toNat + 1) / 2)
        let calw := s.lineWarn (lineA p) a.code (s.captureTick a) || s.captureWarn (lineB p) b
        let y := x.passedAt s.nut (fld (s.pickCtrlNow p) 14 4)
        let dead := deadTime x.last v || s.pickBlind p (some a) b
        (dead = true → ∃ t, exec (.pickEdge p (!bitOf (s.pickCtrlNow p) 18) (some a) b) s = .next t ∧
          t.picks.get p = y ∧ t.reg (Reg.nutTdcDead (lineA p)) = satAdd (s.reg (Reg.nutTdcDead (lineA p))) 1 ∧
          (∀ q, q ≠ p → t.picks.get q = s.picks.get q) ∧ t = { s with picks := t.picks, lines := t.lines, regs := t.regs, setNow := t.setNow } ∧
          s.regsBut t [Reg.nutTdcDead (lineA p)]) ∧
        (dead = false → s.rBit (Reg.pickCtrl p) 13 = false → ∃ t,
          exec (.pickEdge p (!bitOf (s.pickCtrlNow p) 18) (some a) b) s = .next t ∧ t.picks.get p = { y with last := some v } ∧
          (∀ q, q ≠ p → t.picks.get q = s.picks.get q) ∧ t = { s with picks := t.picks, lines := t.lines }) ∧
        (dead = false → s.rBit (Reg.pickCtrl p) 13 = true → x.queue.length < 2048 → ∃ t e,
          exec (.pickEdge p (!bitOf (s.pickCtrlNow p) 18) (some a) b) s = .next t ∧
          t.picks.get p = { y with last := some v, queue := x.queue ++ [e], ovf := false } ∧
          isStampEntry e v b.isNone calw (s.lineTg (lineA p) (s.captureTick a)) x.ovf (x.seq + 1) ∧
          (∀ q, q ≠ p → t.picks.get q = s.picks.get q) ∧ t = { s with picks := t.picks, lines := t.lines }) ∧
        (dead = false → s.rBit (Reg.pickCtrl p) 13 = true → x.queue.length = 2048 → ∃ t,
          exec (.pickEdge p (!bitOf (s.pickCtrlNow p) 18) (some a) b) s = .next t ∧
          t.picks.get p = { y with last := some v, ovf := true } ∧
          t.reg (Reg.pickQdrop p) = satAdd (s.reg (Reg.pickQdrop p)) 1 ∧ t.rBit (Reg.pickStat p) 18 = true ∧
          t = { s with picks := t.picks, lines := t.lines, regs := t.regs, setNow := t.setNow } ∧ s.regsBut t [Reg.pickQdrop p, Reg.pickStat p]))

/-- R108, R110, R111: PICK_CTRL and LOS. PRESC 13 to 15 refuse a write as a whole with CFG_ERR; any other is taken and restarts
the prescaler: at once where EN was 0, and at the end of the tick where EN was 1, EDGE and PRESC counting from the next (the moment is
the model's reading, log entry 174); the gate in progress is flagged SLIP. LOS rises when no edge has been passed for 2^LOS_EXP µs from the later of the last one and
the enable, and not while EN is 0. -/
def Sys2Proof.Machine.PickControlRule : Prop :=
  ∀ (s : State) (p : PickId),
    let x := s.picks.get p
    let from_ := match x.seen with
      | some n => if 0 ≤ (n - x.enAt).toInt then n else x.enAt
      | none => x.enAt
    (∀ v, s.hostOpen (Reg.pickCtrl p) = true →
      (13 ≤ fld v 14 4 → ∃ t, exec (.pickCtrlWrite p v) s = .next t ∧ t.rBit (Reg.pickStat p) 15 = true ∧ s.onlyRegs t [Reg.pickStat p]) ∧
      (fld v 14 4 < 13 → ∃ t, exec (.pickCtrlWrite p v) s = .next t ∧ t.reg (Reg.pickCtrl p) = v &&& 0xFFF00 ∧
        (s.rBit (Reg.pickCtrl p) 19 = false → (t.picks.get p).skip = 0 ∧ t.pickCtrlNow p = v &&& 0xFFF00 ∧
          (t.picks.get p).gate = x.gate.map fun g => { g with slip := true }) ∧
        (s.rBit (Reg.pickCtrl p) 19 = true → (t.picks.get p).skip = x.skip ∧ t.pickCtrlNow p = s.pickCtrlNow p ∧
          (t.picks.get p).gate = x.gate ∧ (t.picks.get p).old.isSome = true) ∧
        (t.picks.get p).enAt = (if bitOf v 19 then s.nut else x.enAt) ∧ (t.picks.get p).queue = x.queue ∧
        (∀ q, q ≠ p → t.picks.get q = s.picks.get q) ∧ t = { s with picks := t.picks, regs := t.regs, setNow := t.setNow } ∧
        s.regsBut t [Reg.pickCtrl p])) ∧
    (x.old.isSome = true → (s.pickRestarts.picks.get p).skip = 0 ∧ s.pickRestarts.pickCtrlNow p = s.reg (Reg.pickCtrl p) ∧
      (s.pickRestarts.picks.get p).gate = x.gate.map fun g => { g with slip := true }) ∧
    (x.old = none → s.pickRestarts.picks.get p = x) ∧
    ((s.rBit (Reg.pickCtrl p) 19 = false ∨
        (s.nut - (from_ + BitVec.ofNat 80 (2 ^ min 21 (s.rFld (Reg.pickCtrl p) 8 5) * 65536000))).toInt < 0) →
      exec (.pickLosTimeout p) s = .next s) ∧
    (s.rBit (Reg.pickCtrl p) 19 = true → s.rBit (Reg.pickStat p) 19 = false → s.rBit Reg.pnlCtrl 19 = false →
      (∀ r : SlotId, s.rsState r = RS.disabled) →
      0 ≤ (s.nut - (from_ + BitVec.ofNat 80 (2 ^ min 21 (s.rFld (Reg.pickCtrl p) 8 5) * 65536000))).toInt →
      ∃ t, exec (.pickLosTimeout p) s = .next t ∧ t.rBit (Reg.pickStat p) 19 = true ∧ (t.picks.get p).queue = x.queue ∧
        t.rBit (Reg.irqGrp 10) (8 + p.val) = true ∧
        t = { s with picks := t.picks, regs := t.regs, setNow := t.setNow } ∧ s.regsBut t [Reg.pickStat p, Reg.irqGrp 10])

/-- Hardware reads the word `w` at `a` of a course's data SRAM, undamaged (R116). -/
def Sys2Proof.Machine.State.hwReads (s : State) (c : CourseId) (a : Nat) (w : Word) : Prop :=
  s.bad.contains (.dataSram, c.val, a % 524288) = false ∧ (s.course c).data.read? (a % 524288) = some w

/-- R114 to R118, R129: the queue of pick `p`. A host read pops the head under TARGET 0 alone; PICK_DRAIN refuses TARGET 3 and SZ outside 4
to 14; a drain writes the head to the course's ring, its words before WR, and raises event p, or to the host ring; an entry that
its target cannot take stays. DRAIN_STALL is 1 while the queue holds an entry that its target cannot take; before each entry, and at
each poll, a course drain reads RD.
Where the spec leaves a reading open it is the model's: notes/assumptions, entries 68, 176. -/
def Obligations.PickQueues : Prop :=
  ∀ (s : State) (p : PickId),
    let x := s.picks.get p
    (s.hostReads (Reg.pickQpop p) = true →
      (s.rFld (Reg.pickDrain p) 18 2 ≠ 0 ∨ x.queue = [] → ∃ t, exec (.pickQpop p) s = .next t ∧ t.shadows (Reg.pickQpop p) 5 0 ∧
        t = { s with rdShadow := t.rdShadow }) ∧
      (∀ e es, s.rFld (Reg.pickDrain p) 18 2 = 0 → x.queue = e :: es → s.headBad p = false → ∃ t, exec (.pickQpop p) s = .next t ∧
        t.shadows (Reg.pickQpop p) 5 e.toNat ∧ (t.picks.get p).queue = es ∧ (∀ q, q ≠ p → t.picks.get q = s.picks.get q) ∧
        t = { s with picks := t.picks, rdShadow := t.rdShadow, bad := t.bad })) ∧
    (∀ v, s.hostOpen (Reg.pickDrain p) = true →
      (fld v 18 2 = 3 ∨ fld v 9 4 < 4 ∨ fld v 9 4 = 15 → ∃ t, exec (.pickDrainWrite p false v) s = .next t ∧
        t.rBit (Reg.pickStat p) 15 = true ∧ s.onlyRegs t [Reg.pickStat p]) ∧
      (fld v 18 2 ≠ 3 → 4 ≤ fld v 9 4 → fld v 9 4 ≤ 14 → (fld v 18 2 = 1 → s.rFld (Reg.pickDrain p) 18 2 = 1) →
        ∃ t, exec (.pickDrainWrite p false v) s = .next t ∧ t.reg (Reg.pickDrain p) = v &&& 0xFFE00 ∧
          s.onlyRegs t [Reg.pickDrain p])) ∧
    (∀ (v w rd : Word), s.hostOpen (Reg.pickDrainBase p) = true → s.rFld (Reg.pickDrain p) 18 2 = 1 →
      s.hwReads (s.drainCourse p) (fld v 3 16 * 8) w → s.hwReads (s.drainCourse p) (fld v 3 16 * 8 + 1) rd →
      ∃ t, exec (.pickDrainWrite p true v) s = .next t ∧ t.reg (Reg.pickDrainBase p) = v &&& 0x7FFFF ∧
        t.picks.get p = { x with wr := BitVec.ofNat 16 w.toNat, rd := BitVec.ofNat 16 rd.toNat } ∧
        (∀ q, q ≠ p → t.picks.get q = s.picks.get q) ∧ t = { s with picks := t.picks, regs := t.regs, setNow := t.setNow } ∧
        s.regsBut t [Reg.pickDrainBase p]) ∧
    (∀ (e : BitVec 100) (es : List (BitVec 100)) (rd : Word), x.queue = e :: es → s.headBad p = false →
      s.rFld (Reg.pickDrain p) 18 2 = 1 → s.hwReads (s.drainCourse p) (s.drainBase p + 1) rd →
      (s.crsState (s.drainCourse p) ≠ CS.reset → s.powered (1 + (s.drainCourse p).val) = true → (x.wr - BitVec.ofNat 16 rd.toNat).toNat < 2 ^ s.rFld (Reg.pickDrain p) 9 4 →
        4 ≤ s.rFld (Reg.pickDrain p) 9 4 → s.rFld (Reg.pickDrain p) 9 4 ≤ 14 →
        s.waiterOf (s.drainCourse p) p.val = none → s.rFld (Reg.crsEvt (s.drainCourse p) p.val) 0 16 < 65535 →
        ∃ t, exec (.pickDrainEntry p) s = .next t ∧ (t.picks.get p).queue = es ∧ (t.picks.get p).wr = x.wr + 1 ∧
          t.rBit (Reg.pickStat p) 14 =
            (!es.isEmpty && decide (2 ^ s.rFld (Reg.pickDrain p) 9 4 ≤ (x.wr + 1 - BitVec.ofNat 16 rd.toNat).toNat)) ∧
          (∀ i, i < 5 → (t.course (s.drainCourse p)).data.read?
              ((s.drainBase p + 8 + 8 * (x.wr.toNat % 2 ^ s.rFld (Reg.pickDrain p) 9 4) + i) % 524288) =
            some (BitVec.ofNat 20 (e.toNat >>> (20 * i)))) ∧
          (t.course (s.drainCourse p)).data.read? (s.drainBase p % 524288) = some (BitVec.ofNat 20 (x.wr + 1).toNat) ∧
          t.rFld (Reg.crsEvt (s.drainCourse p) p.val) 0 16 = s.rFld (Reg.crsEvt (s.drainCourse p) p.val) 0 16 + 1 ∧
          ∀ c, c ≠ s.drainCourse p → t.course c = s.course c) ∧
      ((s.crsState (s.drainCourse p) = CS.reset ∨ s.powered (1 + (s.drainCourse p).val) = false ∨ 2 ^ s.rFld (Reg.pickDrain p) 9 4 ≤ (x.wr - BitVec.ofNat 16 rd.toNat).toNat) →
        ∃ t, exec (.pickDrainEntry p) s = .next t ∧ t.rBit (Reg.pickStat p) 14 = true ∧
          t.picks.get p = { x with rd := BitVec.ofNat 16 rd.toNat } ∧ (∀ q, q ≠ p → t.picks.get q = s.picks.get q) ∧
          t = { s with picks := t.picks, regs := t.regs, setNow := t.setNow } ∧ s.regsBut t [Reg.pickStat p])) ∧
    (∀ (e : BitVec 100) (es : List (BitVec 100)), x.queue = e :: es → s.headBad p = false → s.rFld (Reg.pickDrain p) 18 2 = 2 →
      let r : RingId := Fin.ofNat 8 (s.rFld (Reg.pickDrain p) 13 3)
      (s.rxRoom r 16 = true → s.rxPad r 16 = 0 → ∃ t, exec (.pickDrainEntry p) s = .next t ∧ (t.picks.get p).queue = es ∧
        t.hostHolds (s.hostBase (Reg.devRxBase r) + s.rxOff r) (pickRecord e.toNat p.val) ∧
        t.reg (Reg.devRxWr r) = s.reg (Reg.devRxWr r) + 1 ∧
        t.rBit (Reg.pickStat p) 14 = (!es.isEmpty && !t.rxRoom r 16)) ∧
      (s.rxRoom r 16 = false → ∃ t, exec (.pickDrainEntry p) s = .next t ∧ t.rBit (Reg.pickStat p) 14 = true ∧
        s.onlyRegs t [Reg.pickStat p])) ∧
    (s.rFld (Reg.pickDrain p) 18 2 = 1 → exec (.pickDrainPoll p) s = exec (.pickDrainEntry p) s) ∧
    (s.rFld (Reg.pickDrain p) 18 2 ≠ 1 → exec (.pickDrainPoll p) s = .next s) ∧
    s.drainStalls.rBit (Reg.pickStat p) 14 = s.drainStuck p

/-- How far a start lies from a stop, in 2⁻¹⁶ ns. -/
def Sys2Proof.Machine.ivlDist (stop q : IvlStamp) : Nat := (stop.t - q.t).toInt.natAbs

/-- R112, R119, R120: the interval entry of a stop: I, the start's SEQ, and COINC, WRONG_ORDER, NOPAIR, CAL_WARN and the stop's SEQ. -/
def Sys2Proof.Machine.isIvlEntry (e : BitVec 100) (i : Int) (sseq : Nat) (co wo np cw : Bool) (seq : BitVec 12) : Prop :=
  (BitVec.ofNat 40 e.toNat).toInt = i ∧ e.toNat / 2 ^ 40 % 2 ^ 40 = sseq ∧ bitOf (entryWord4 e) 19 = true ∧ bitOf (entryWord4 e) 18 = co ∧
    bitOf (entryWord4 e) 17 = wo ∧ bitOf (entryWord4 e) 16 = np ∧ bitOf (entryWord4 e) 14 = true ∧ bitOf (entryWord4 e) 13 = cw ∧
    fld (entryWord4 e) 0 12 = seq.toNat

/-- R119, R120: intervals. Once the nut passes the oldest stop's stamp plus WIN and 4 ticks, its stamp entry and its interval entry enter the
queue: with the nearest start within WIN, the earlier of two equally near, used once, COINC below 655 units with I = 0 and else
the signed I with WRONG_ORDER for a negative one; with NOPAIR where no start lies within WIN. Once the due stops are
paired, starts that no stop can reach any more are counted in PICK_IVL_UNUSED. -/
def Sys2Proof.Machine.IntervalsRule : Prop :=
  ∀ (s : State) (p : PickId),
    let x := s.picks.get p
    let win := 65536 * (s.reg (Reg.pickIvlWin p)).toNat
    let pairs := fun (stop : IvlStamp) (starts : List IvlStamp) (ok : BitVec 100 → Prop) => ∃ t e,
      exec (.intervalPair p) s = .next t ∧
        t.picks.get p = { x with stops := x.stops.tail, starts := starts, queue := x.queue ++ [queueEntry stop.t stop.word, e] } ∧ ok e ∧
        (∀ q, q ≠ p → t.picks.get q = s.picks.get q) ∧ t = { s with picks := t.picks }
    (x.stops = [] → exec (.intervalPair p) s = .next s) ∧
    (∀ stop rest, x.stops = stop :: rest → (s.nut - (stop.t + BitVec.ofNat 80 (win + 655360))).toInt ≤ 0 →
      exec (.intervalPair p) s = .next s) ∧
    (∀ stop rest, x.stops = stop :: rest → 0 < (s.nut - (stop.t + BitVec.ofNat 80 (win + 655360))).toInt →
      x.queue.length + 2 ≤ 2048 → x.ovf = false →
      ((∀ q ∈ x.starts, win < ivlDist stop q) → pairs stop x.starts fun e => isIvlEntry e 0 0 false false true stop.calw stop.seq) ∧
      (∀ q ∈ x.starts, ivlDist stop q ≤ win →
        (∀ r ∈ x.starts, r ≠ q → ivlDist stop q < ivlDist stop r ∨ (ivlDist stop q = ivlDist stop r ∧ 0 < (r.t - q.t).toInt)) →
        (ivlDist stop q < 655 → pairs stop (x.starts.filter fun z => decide (z ≠ q)) fun e =>
          isIvlEntry e 0 q.seq.toNat true false false (stop.calw || q.calw) stop.seq) ∧
        (655 ≤ ivlDist stop q → pairs stop (x.starts.filter fun z => decide (z ≠ q)) fun e =>
          isIvlEntry e (stop.t - q.t).toInt q.seq.toNat false (decide ((stop.t - q.t).toInt < 0)) false (stop.calw || q.calw)
            stop.seq))) ∧
    (∀ stop rest, x.stops = stop :: rest → 0 < (s.nut - (stop.t + BitVec.ofNat 80 (win + 655360))).toInt →
      ∃ u, exec (.intervalPair p) s = .next u ∧ exec (.startUnused p) s = exec (.startUnused p) u) ∧
    ((∀ stop rest, x.stops = stop :: rest → (s.nut - (stop.t + BitVec.ofNat 80 (win + 655360))).toInt ≤ 0) →
      let gone := fun q : IvlStamp => decide (0 < (s.nut - (q.t + BitVec.ofNat 80 (2 * win + 655360))).toInt)
      ∃ t, exec (.startUnused p) s = .next t ∧ t.picks.get p = { x with starts := x.starts.filter fun q => !gone q } ∧
        t.reg (Reg.pickIvlUnused p) = satAdd (s.reg (Reg.pickIvlUnused p)) (x.starts.filter gone).length ∧
        (∀ q, q ≠ p → t.picks.get q = s.picks.get q) ∧ t = { s with picks := t.picks, regs := t.regs, setNow := t.setNow } ∧
        s.regsBut t [Reg.pickIvlUnused p])

/-- R108, R121 to R124, R167, R168: gates and regression. A gate opened with AUTO closes after its own length and the next opens on that tick
while AUTO is still 1; one open for 1,000 s closes with LONG, unless a pluck closes it on that tick. A passed edge that falls in a new sample slot adds to the
exact sums. The result of the oldest closed gate, written once
no stamp below its closing tick can still come, gives N, the sums and Y by R123, and advances SEQ; with fewer than three
samples Y is 0 with FEW. -/
def Sys2Proof.Machine.GatesAndRegressionRule : Prop :=
  ∀ (s : State) (u : GateUnit),
    (∀ g, s.gateOf u = some g → g.auto = true → 0 ≤ (s.nut - (g.opn + BitVec.ofNat 80 (g.len * 65536000000))).toInt →
      ∃ t, exec (.gateAutoClose u) s = .next t ∧ t.closedOf u = s.closedOf u ++ [{ gate := g, cls := s.nut, long := false }] ∧
        (s.rBit (unitBase u + 0x10) 19 = false → t.gateOf u = none) ∧
        (s.rBit (unitBase u + 0x10) 19 = true → ∃ h, t.gateOf u = some h ∧ h.opn = s.nut ∧ h.auto = true ∧
          h.len = (s.reg (unitBase u + 0x14)).toNat ∧ h.n = 0 ∧ h.first = none ∧ h.slip = false) ∧
        t = { s with picks := t.picks, fmus := t.fmus }) ∧
    (∀ g, s.gateOf u = some g → g.auto = false → 0 ≤ (s.nut - (g.opn + BitVec.ofNat 80 (1000000 * 65536000000))).toInt →
      (s.pluckCloses u = true → exec (.gateLimitClose u) s = .next s) ∧ (s.pluckCloses u = false →
      ∃ t, exec (.gateLimitClose u) s = .next t ∧ t.gateOf u = none ∧
        t.closedOf u = s.closedOf u ++ [{ gate := g, cls := s.nut, long := true }] ∧ t = { s with picks := t.picks, fmus := t.fmus })) ∧
    ((s.gateOf u = none → exec (.gateAutoClose u) s = .next s ∧ exec (.gateLimitClose u) s = .next s)) ∧
    (s.closedOf u = [] → exec (.gateResult u) s = .next s) ∧
    (∀ c cs, s.closedOf u = c :: cs → s.allArrived u c.cls = false → exec (.gateResult u) s = .next s) ∧
    (∀ c cs, s.closedOf u = c :: cs → s.allArrived u c.cls = true → (∀ r : SlotId, s.takesGates r u = false) →
      let b := unitBase u
      let g := c.gate
      let fnom := s.regN (b + 0x18) 2
      let d : Int := (g.n : Int) * g.smm - (g.sm : Int) * g.sm
      let a : Int := (g.n : Int) * g.smx - (g.sm : Int) * g.sx
      let y : Int := roundHaz (100000000000000 * ((2 : Int) ^ (g.presc + 24) * 1000000000 * d - a * fnom)) (a * fnom)
      ∃ t, exec (.gateResult u) s = .next t ∧ t.closedOf u = cs ∧ t.gateOf u = s.gateOf u ∧
        t.rFld (b + 0x50) 0 8 = (s.rFld (b + 0x50) 0 8 + 1) % 256 ∧ t.rBit (b + 0x50) 19 = g.slip ∧ t.rBit (b + 0x50) 18 = g.los ∧
        t.rBit (b + 0x50) 14 = c.long ∧ t.rBit (b + 0x50) 13 = g.calw ∧
        t.rBit (b + 0x50) 15 = decide ((c.cls - g.opn).toNat < 65536000000) ∧
        (g.n < 3 → t.rBit (b + 0x50) 17 = true ∧ t.regN (b + 0x54) 2 = 0) ∧
        (3 ≤ g.n → fnom ≠ 0 → -549755813888 ≤ y → y < 549755813888 → t.rBit (b + 0x50) 17 = false ∧ t.rBit (b + 0x50) 16 = false ∧
          (t.reg40 (b + 0x54)).toInt = y) ∧
        (fnom = 0 → t.rBit (b + 0x50) 16 = true ∧ t.regN (b + 0x54) 2 = 0) ∧
        t.reg80 (b + 0x60) = g.first.getD 0 ∧ t.regN (b + 0x70) 2 = g.n % 2 ^ 40 ∧ t.regN (b + 0x78) 4 = g.sm % 2 ^ 80 ∧
        t.regN (b + 0x88) 5 = g.smm % 2 ^ 100 ∧ t.regN (b + 0x9C) 5 = g.sx % 2 ^ 100 ∧ t.regN (b + 0xB0) 6 = g.smx % 2 ^ 120 ∧
        t = { s with picks := t.picks, fmus := t.fmus, regs := t.regs, setNow := t.setNow } ∧
        s.regsBut t ((b + 4) :: (b + 0x50) :: (wordsAt (b + 0x54) 2 ++ wordsAt (b + 0x60) 25))) ∧
    (∀ (f : FmuId) (g : Gate) (t0 : Nut), s.nutRun = true → s.rBit (Reg.brgFmuCtrl f) 19 = true → s.fmuClock f = true →
      s.rBit (Reg.brgFmuStat f) 19 = false → (s.fmus.get f).gate = some g → (s.fmus.get f).closed = [] → g.first = some t0 →
      (0 < (s.fmus.get f).skip → ∃ t, exec (.fmuEdge f) s = .next t ∧
        t.fmus.get f = { s.fmus.get f with skip := (s.fmus.get f).skip - 1 } ∧ t = { s with fmus := t.fmus }) ∧
      ((s.fmus.get f).skip = 0 → g.slot ≠ some (s.nut.toNat / 671088640) → 0 ≤ (s.nut - g.opn).toInt →
        (∀ m, (s.fmus.get f).last = some m → 196608 ≤ (s.nut - m).toNat) →
        ∃ t h, exec (.fmuEdge f) s = .next t ∧ (t.fmus.get f).gate = some h ∧ (t.fmus.get f).last = some s.nut ∧
          h.edges = g.edges + 1 ∧ h.n = g.n + 1 ∧ h.sm = g.sm + h.edges ∧ h.smm = g.smm + h.edges * h.edges ∧
          h.sx = g.sx + (s.nut - t0).toNat ∧ h.smx = g.smx + h.edges * (s.nut - t0).toNat ∧ h.slip = g.slip ∧
          h.slot = some (s.nut.toNat / 671088640) ∧ (∀ k, k ≠ f → t.fmus.get k = s.fmus.get k) ∧
          s.onlyRegs { t with fmus := s.fmus } [Reg.brgFmuStat f])) ∧
    (∀ f : FmuId, s.rBit (Reg.brgFmuCtrl f) 19 = false → exec (.fmuEdge f) s = .next s ∧ exec (.fmuLosTimeout f) s = .next s) ∧
    (∀ f : FmuId, s.rBit (Reg.brgFmuCtrl f) 19 = true → s.rBit (Reg.brgFmuStat f) 19 = false → s.rBit Reg.pnlCtrl 19 = false →
      s.fmuClock f = false → (∀ r : SlotId, s.rsState r = RS.disabled) → ∃ t, exec (.fmuLosTimeout f) s = .next t ∧
        t.rBit (Reg.brgFmuStat f) 19 = true ∧ (t.fmus.get f).gate = ((s.fmus.get f).gate.map fun g => { g with los := true }) ∧
        t = { s with fmus := t.fmus, regs := t.regs, setNow := t.setNow } ∧ s.regsBut t [Reg.brgFmuStat f])

/-- `e` is the queue entry of panel event `code` on tick `n` (R527, R528). -/
def Sys2Proof.Machine.isPanelEntry (e : BitVec 100) (n : Nut) (ovf : Bool) (code : Nat) : Prop :=
  e.toNat % 2 ^ 80 = n.toNat ∧ bitOf (entryWord4 e) 19 = true ∧ bitOf (entryWord4 e) 18 = ovf ∧ fld (entryWord4 e) 0 8 = code

/-- R528: an event enters the panel's queue between `s` and `t`, with room for it. -/
def Sys2Proof.Machine.State.panelQueued (s t : State) (code : Nat) : Prop :=
  ∃ e, t.panel.queue = s.panel.queue ++ [e] ∧ isPanelEntry e s.nut s.panel.ovf code ∧ t.rBit Reg.pnlCause 19 = true

/-- R127, R128, R521, R522, R525, R527 to R529: house channels and the panel, on states whose panel has room and no binding. SEL of HC0 is
held while a calibration owns it; a touch slot ends every 16,384 ticks, of the four pads in turn (that TOUCH0's begins at nut value 0 is
the model's choice, log entry 177), and writes the charge time, 0xF_FFFF without a crossing; a key changes after DEB samples
that disagree, with its event, and a long press is told once; the antenna state follows ten equal samples; a read pops the
event queue.
Where the spec leaves a reading open it is the model's: notes/assumptions, entries 69, 70, 177. -/
def Obligations.HouseAndPanel : Prop :=
  ∀ s : State,
    (∀ v, s.hostOpen Reg.pickHc0Ctrl = true →
      (s.rBit Reg.pickHc0Ctrl 18 = false → ∃ t, exec (.hc0SelWrite v) s = .next t ∧ t.rBit Reg.pickHc0Ctrl 19 = bitOf v 19 ∧
        t.rFld Reg.pickHc0Ctrl 0 3 = fld v 0 3 ∧ s.onlyRegs t [Reg.pickHc0Ctrl]) ∧
      (s.rBit Reg.pickHc0Ctrl 18 = true → ∃ t, exec (.hc0SelWrite v) s = .next t ∧ t.rBit Reg.pickHc0Ctrl 19 = bitOf v 19 ∧
        t.rFld Reg.pickHc0Ctrl 0 3 = s.rFld Reg.pickHc0Ctrl 0 3 ∧ t.house = { s.house with heldSel := some (fld v 0 3) } ∧
        t = { s with regs := t.regs, setNow := t.setNow, house := t.house } ∧ s.regsBut t [Reg.pickHc0Ctrl])) ∧
    (∀ (pad : Fin 4) (x : Option (Nut × Code)), s.touchEnds pad = false → exec (.touchSlot pad x) s = .next s) ∧
    (∀ pad : Fin 4, s.touchEnds pad = (s.nutRun && decide (s.nut ≠ 0) && decide (s.nut.toNat % (16384 * 163840) = 0) &&
      decide ((s.nut.toNat / (16384 * 163840) - 1) % 4 = pad.val) && decide (s.house.touchAt ≠ some s.nut))) ∧
    (∀ pad : Fin 4, s.touchEnds pad = true → (s.panel.pads.get pad).bad < 7 → ∃ t, exec (.touchSlot pad none) s = .next t ∧
      t.reg (Reg.pickHc1Chg pad) = 0xFFFFF ∧ (t.panel.pads.get pad).bad = (s.panel.pads.get pad).bad + 1 ∧
      t.house = { s.house with touchAt := some s.nut } ∧
      t = { s with regs := t.regs, setNow := t.setNow, panel := t.panel, lines := t.lines, house := t.house } ∧
      s.regsBut t [Reg.pickHc1Chg pad]) ∧
    (∀ (pad : Fin 4) (nc : Nut) (code : Code), s.touchEnds pad = true → s.tdcBad 65 code.val nc = false → code.val ≠ 383 →
      s.rBit Reg.pnlCtrl 19 = false →
      let d := (s.lineStamp 65 code nc - (s.nut - BitVec.ofNat 80 (16384 * 163840))).toInt
      0 ≤ d → d < 16384 * 163840 →
      ∃ t, exec (.touchSlot pad (some (nc, code))) s = .next t ∧ t.reg (Reg.pickHc1Chg pad) = BitVec.ofInt 20 (roundHaz d 4096) ∧
        t.rBit Reg.pnlTouchStat (4 + pad.val) = false ∧
        t = { s with regs := t.regs, setNow := t.setNow, panel := t.panel, lines := t.lines, house := t.house } ∧
        s.regsBut t [Reg.pickHc1Chg pad, Reg.pnlTouchStat, Reg.pnlTbase pad]) ∧
    ((s.nutRun = false ∨ s.nut.toNat % 65536000000 ≠ 0) → ∀ l, exec (.keySample l) s = .next s) ∧
    (∀ levels : Byte, s.nutRun = true → s.nut.toNat % 65536000000 = 0 → s.rBit Reg.pnlCtrl 19 = false →
      ∃ t, exec (.keySample levels) s = .next t ∧ t.rFld Reg.pnlKeys 8 8 = (~~~levels).toNat ∧
        (∀ k : Fin 8, let x := s.panel.keys.get k
          let pressed := !levels.getLsbD k
          (pressed = s.rBit Reg.pnlKeys k → t.rBit Reg.pnlKeys k = pressed ∧ (t.panel.keys.get k).run = 0) ∧
          (pressed ≠ s.rBit Reg.pnlKeys k → x.run + 1 < s.rFld Reg.pnlCtrl 8 8 →
            t.rBit Reg.pnlKeys k = s.rBit Reg.pnlKeys k ∧ (t.panel.keys.get k).run = x.run + 1) ∧
          (pressed ≠ s.rBit Reg.pnlKeys k → s.rFld Reg.pnlCtrl 8 8 ≤ x.run + 1 → t.rBit Reg.pnlKeys k = pressed ∧
            (t.panel.keys.get k).run = 0 ∧ (t.panel.keys.get k).down = if pressed then some s.nut else none)) ∧
        t = { s with regs := t.regs, setNow := t.setNow, panel := t.panel } ∧ s.regsBut t [Reg.pnlKeys]) ∧
    (∀ (k : Fin 8) (n : Nut), (s.panel.keys.get k).down = some n → s.rBit Reg.pnlCtrl 19 = true → s.panel.queue.length < 32 →
      (∀ i, i < 32 → s.rBit (Reg.pnlBind i) 19 = false) →
      (0 ≤ (s.nut - (n + BitVec.ofNat 80 (s.rFld Reg.pnlLong 0 14 * 65536000000))).toInt → ∃ t, exec (.keyLongExpiry k) s = .next t ∧
        (t.panel.keys.get k).down = none ∧ s.panelQueued t (0x08 + k.val) ∧ t = { s with panel := t.panel, regs := t.regs, setNow := t.setNow } ∧
        s.regsBut t [Reg.pnlCause]) ∧
      ((s.nut - (n + BitVec.ofNat 80 (s.rFld Reg.pnlLong 0 14 * 65536000000))).toInt < 0 → exec (.keyLongExpiry k) s = .next s)) ∧
    (s.rBit Reg.pnlCtrl 19 = true → s.panel.queue.length < 32 → (∀ i, i < 32 → s.rBit (Reg.pnlBind i) 19 = false) →
      s.panel.antO.level = false → s.panel.antS.level = false → s.panel.antO.run = 9 → s.rFld Reg.pnlAnt 18 2 = 0 →
      ∃ t, exec (.antSample true false) s = .next t ∧ t.rFld Reg.pnlAnt 18 2 = 1 ∧ s.panelQueued t 0x21 ∧
        t = { s with panel := t.panel, regs := t.regs, setNow := t.setNow } ∧ s.regsBut t [Reg.pnlAnt, Reg.pnlCause]) ∧
    (s.panel.antO.level = false → s.panel.antO.run < 9 → s.rFld Reg.pnlAnt 18 2 = 0 → s.panel.antS.level = false →
      ∃ t, exec (.antSample true false) s = .next t ∧ t.panel.antO.run = s.panel.antO.run + 1 ∧ t.panel.antO.level = false ∧
        t = { s with panel := t.panel }) ∧
    (s.hostReads Reg.pnlEvt = true →
      (∀ e es, s.panel.queue = e :: es → ∃ t, exec .panelEvtPop s = .next t ∧ t.shadows Reg.pnlEvt 5 e.toNat ∧ t.panel.queue = es ∧
        t = { s with panel := t.panel, rdShadow := t.rdShadow }) ∧
      (s.panel.queue = [] → ∃ t, exec .panelEvtPop s = .next t ∧ t.shadows Reg.pnlEvt 5 0 ∧ t = { s with rdShadow := t.rdShadow }))


/-- R67, R72, R108, R110 to R114: a pick's edges and its control register.
Where the spec leaves a reading open it is the model's: notes/assumptions, entries 62, 63, 64, 165, 169, 173, 174. -/
def Obligations.PickEdgesAndControl : Prop := Sys2Proof.Machine.PickEdgesRule ∧ Sys2Proof.Machine.PickControlRule


/-- R108, R119 to R124, R167, R168: intervals, gates and regressions.
Where the spec leaves a reading open it is the model's: notes/assumptions, entries 65, 67, 170, 171, 172, 175. -/
def Obligations.IntervalsAndGates : Prop := Sys2Proof.Machine.IntervalsRule ∧ Sys2Proof.Machine.GatesAndRegressionRule

/-! ### Plucks -/

/-- The firing tick of a nut target in long mode (R137): the first tick at or after it. -/
def Sys2Proof.Machine.tickOf (x : Nut) : Nat := (x.toNat + 163839) / 163840 * 163840

/-- R134, R462, R466: a request `r` offered to a pluck: it crosses with PENDING where none crosses and its crossing is not void; else it
waits with BUSY, where it replaces what waits there. `b` is the BUSY bit of the pluck's status register, `i` the transfer. -/
def Sys2Proof.Machine.Pluck.offered (x y : Pluck) (r : PluckReq) (s t : State) (stat b : Nat) (i : Xfer) : Prop :=
  (x.pend = none → s.isVoid 49 = false → y = { x with pend := some r, next := none } ∧ t.rBit stat 18 = true ∧ t.rBit stat b = false ∧
    t.flight = s.flight ++ [(49, i)]) ∧
  ((x.pend ≠ none ∨ s.isVoid 49 = true) → y = { x with next := some r } ∧ t.rBit stat b = true ∧ t.rBit stat 18 = s.rBit stat 18 ∧
    t.flight = s.flight) ∧ s.regsBut t [stat]

/-- R134 to R136, R138, R139, R141, R148 to R151, R155: arms and disarms. A written ARM takes the configuration at the moment it is written;
its arm tick refuses it with ERR by R136 or with RANGE by R138, and else arms the pluck with its nut target; a late target under DROP
disarms with MISSED, and under SKIP skips to the first period not before this tick. A marked pluck is converted again under the
new anchors, or disarms with ERR where its tuning is disabled. No re-conversion pass runs where a clause does not speak of one.
Where the spec leaves a reading open it is the model's: notes/assumptions, entries 74, 75, 178. -/
def Obligations.PluckArming : Prop :=
  ∀ s : State,
    (∀ (g : PluckId) (v : Word), s.hostOpen (Reg.plkCmd g) = true → bitOf v 19 = true → ∃ t, exec (.pluckArm g v) s = .next t ∧
      (s.plucks.get g).offered (t.plucks.get g) { arm := true, disarm := bitOf v 18, cfg := s.plkCfg g, armp := none } s t (Reg.plkStat g) 17 (.gen g) ∧
      (∀ h, h ≠ g → t.plucks.get h = s.plucks.get h) ∧ t = { s with regs := t.regs, setNow := t.setNow, plucks := t.plucks, flight := t.flight }) ∧
    (∀ g : PluckId, s.hostOpen (Reg.plkCmd g) = true → ∃ t, exec (.pluckDisarm g) s = .next t ∧
      (s.plucks.get g).offered (t.plucks.get g) { arm := false, disarm := true, cfg := s.plkCfg g, armp := none } s t (Reg.plkStat g) 17 (.gen g) ∧
      (∀ h, h ≠ g → t.plucks.get h = s.plucks.get h) ∧ t = { s with regs := t.regs, setNow := t.setNow, plucks := t.plucks, flight := t.flight }) ∧
    (∀ (o : OutId) (v : Word), s.hostOpen (Reg.plkEdgeCmd o) = true → bitOf v 19 = true → bitOf v 17 = false →
      ∃ t, exec (.edgePluckArm o v) s = .next t ∧
      (s.edges.get o).pluck.offered (t.edges.get o).pluck { arm := true, disarm := bitOf v 18, cfg := s.edgeCfg o, armp := none } s t
        (Reg.plkEdgeStat o) 10 (.edge o) ∧
      (∀ h, h ≠ o → t.edges.get h = s.edges.get h) ∧ t = { s with regs := t.regs, setNow := t.setNow, edges := t.edges, flight := t.flight }) ∧
    (∀ o : OutId, s.hostOpen (Reg.plkEdgeCmd o) = true → ∃ t, exec (.edgePluckDisarm o) s = .next t ∧
      (s.edges.get o).pluck.offered (t.edges.get o).pluck { arm := false, disarm := true, cfg := s.edgeCfg o, armp := none } s t
        (Reg.plkEdgeStat o) 10 (.edge o) ∧
      (∀ h, h ≠ o → t.edges.get h = s.edges.get h) ∧ t = { s with regs := t.regs, setNow := t.setNow, edges := t.edges, flight := t.flight }) ∧
    (∀ (g : PluckId) (r : PluckReq), s.rBit Reg.plkGstat 19 = false → (s.plucks.get g).pend = some r → r.armp = none →
      (∀ q, (s.plucks.get g).next = some q → s.isVoid q.xing = false) →
      let c := r.cfg
      let per := bitOf c.ctrl 7
      let act := fld c.ctrl 16 4
      let refused := 7 ≤ act ∨ fld c.ctrl 8 2 = 3 ∨ (bitOf c.ctrl 15 = true ∧ s.rBit (Reg.tunCtrl (fld c.ctrl 11 4)) 19 = false) ∨
        (per = true ∧ c.per.toNat < 65536000) ∨ (per = false ∧ fld c.ctrl 8 2 = 2) ∨
        ((act = 2 ∨ act = 3 ∨ act = 5) ∧ c.dest = 0) ∨ r.disarm = true
      let x : Nut := if bitOf c.ctrl 15 then nutOfReading (s.anchor (Fin.ofNat 16 (fld c.ctrl 11 4))) c.tgt
        else BitVec.ofNat 80 c.tgt.toNat
      let regs := Reg.plkStat g :: Reg.plkLate g :: Reg.plkMisscnt g :: wordsAt (Reg.plkNtgt g) 4
      let took := fun t : State => exec (.pluckArmTick (.gen g)) s = .next t ∧ (t.plucks.get g).pend = (s.plucks.get g).next ∧
        (t.plucks.get g).next = none ∧ t.rBit (Reg.plkStat g) 18 = (s.plucks.get g).next.isSome ∧
        t.rBit (Reg.plkStat g) 17 = (s.rBit (Reg.plkStat g) 17 && (s.plucks.get g).next.isNone) ∧
        t.flight = s.flight.filter (fun e => decide (e.2 ≠ .gen g)) ++ ((s.plucks.get g).next.map fun q => (q.xing, .gen g)).toList ∧
        (∀ h, h ≠ g → t.plucks.get h = s.plucks.get h) ∧
        t = { s with regs := t.regs, setNow := t.setNow, plucks := t.plucks, flight := t.flight } ∧ s.regsBut t regs
      (r.arm = true → refused → ∃ t, took t ∧ t.rBit (Reg.plkStat g) 11 = true ∧ t.rBit (Reg.plkStat g) 19 = false) ∧
      (r.arm = false → s.genDue g = false → ∃ t, took t ∧ t.rBit (Reg.plkStat g) 19 = false ∧
        t.rBit (Reg.plkStat g) 11 = s.rBit (Reg.plkStat g) 11) ∧
      (r.arm = true → ¬ refused → bitOf c.ctrl 10 = true → 2 ^ 47 ≤ (x - s.nut).toInt.natAbs → ∃ t, took t ∧
        t.rBit (Reg.plkStat g) 12 = true ∧ t.rBit (Reg.plkStat g) 19 = false) ∧
      (r.arm = true → ¬ refused → bitOf c.ctrl 10 = false → s.nut.toNat ≤ tickOf x → tickOf x < 2 ^ 80 → ∃ t, took t ∧
        t.rBit (Reg.plkStat g) 19 = true ∧ t.rBit (Reg.plkStat g) 16 = false ∧ t.reg80 (Reg.plkNtgt g) = x ∧
        (t.plucks.get g).cfg = c ∧ (t.plucks.get g).tgt = c.tgt) ∧
      (r.arm = true → ¬ refused → bitOf c.ctrl 10 = false → tickOf x < s.nut.toNat → s.nut.toNat % 163840 = 0 →
        (fld c.ctrl 8 2 = 1 → ∃ t, took t ∧ t.rBit (Reg.plkStat g) 13 = true ∧ t.rBit (Reg.plkStat g) 19 = false ∧
          t.reg (Reg.plkLate g) = BitVec.ofNat 20 (min 1048575 ((s.nut.toNat - tickOf x) / 163840)) ∧
          t.reg (Reg.plkMisscnt g) = satAdd (s.reg (Reg.plkMisscnt g)) 1) ∧
        (fld c.ctrl 8 2 = 0 → ∃ t, took t ∧ t.rBit (Reg.plkStat g) 19 = true ∧ t.genDue g = true) ∧
        (fld c.ctrl 8 2 = 2 → bitOf c.ctrl 15 = false → s.nut.toNat + 2 * c.per.toNat < 2 ^ 79 → ∃ t k, took t ∧ 1 ≤ k ∧
          s.nut.toNat ≤ tickOf (t.reg80 (Reg.plkNtgt g)) ∧ (t.reg80 (Reg.plkNtgt g)).toNat = x.toNat + k * c.per.toNat ∧
          (∀ j, 1 ≤ j → j < k → (x.toNat + j * c.per.toNat + 163839) / 163840 * 163840 < s.nut.toNat) ∧
          t.rBit (Reg.plkStat g) 13 = true ∧ t.rBit (Reg.plkStat g) 19 = true ∧
          t.reg (Reg.plkMisscnt g) = satAdd (s.reg (Reg.plkMisscnt g)) k))) ∧
    (∀ (o : OutId) (r : PluckReq), s.rBit Reg.plkGstat 19 = false → (s.edges.get o).pluck.pend = some r → r.armp = none →
      (∀ q, (s.edges.get o).pluck.next = some q → s.isVoid q.xing = false) →
      let c := r.cfg
      let per := bitOf c.ctrl 11
      let refused := (bitOf c.ctrl 16 = true ∧ s.rBit (Reg.tunCtrl (fld c.ctrl 12 4)) 19 = false) ∨ (per = true ∧ c.per.toNat < 65536000) ∨
        r.disarm = true ∨ c.width = 0 ∨ (per = true ∧ c.per.toNat ≤ c.width.toNat * 163840)
      let x : Nut := if bitOf c.ctrl 16 then nutOfReading (s.anchor (Fin.ofNat 16 (fld c.ctrl 12 4))) c.tgt
        else BitVec.ofNat 80 c.tgt.toNat
      let regs := Reg.plkEdgeStat o :: Reg.plkEdgeMisscnt o :: wordsAt (Reg.plkEdgeNtgt o) 4
      let took := fun t : State => exec (.pluckArmTick (.edge o)) s = .next t ∧ (t.edges.get o).pluck.pend = (s.edges.get o).pluck.next ∧
        (t.edges.get o).pluck.next = none ∧ t.rBit (Reg.plkEdgeStat o) 18 = (s.edges.get o).pluck.next.isSome ∧
        t.rBit (Reg.plkEdgeStat o) 10 = (s.rBit (Reg.plkEdgeStat o) 10 && (s.edges.get o).pluck.next.isNone) ∧
        t.flight = s.flight.filter (fun e => decide (e.2 ≠ .edge o)) ++ ((s.edges.get o).pluck.next.map fun q => (q.xing, .edge o)).toList ∧
        (∀ h, h ≠ o → t.edges.get h = s.edges.get h) ∧
        t = { s with regs := t.regs, setNow := t.setNow, edges := t.edges, flight := t.flight } ∧ s.regsBut t regs
      (r.arm = true → refused → ∃ t, took t ∧ t.rBit (Reg.plkEdgeStat o) 14 = true ∧ t.rBit (Reg.plkEdgeStat o) 19 = false) ∧
      (r.arm = false → s.edgeDue o = false → ∃ t, took t ∧ t.rBit (Reg.plkEdgeStat o) 19 = false) ∧
      (r.arm = true → ¬ refused → (s.rBit (Reg.plkEdgeCtrl o) 19 = false ∨ (s.nut.toNat : Int) ≤ s.edgeTick o x) → ∃ t, took t ∧
        t.rBit (Reg.plkEdgeStat o) 19 = true ∧ t.rBit (Reg.plkEdgeStat o) 17 = false ∧ t.reg80 (Reg.plkEdgeNtgt o) = x) ∧
      (r.arm = true → ¬ refused → per = false → s.rBit (Reg.plkEdgeCtrl o) 19 = true → s.edgeTick o x < (s.nut.toNat : Int) → ∃ t, took t ∧
        t.rBit (Reg.plkEdgeStat o) 15 = true ∧ t.rBit (Reg.plkEdgeStat o) 19 = false ∧
        t.reg (Reg.plkEdgeMisscnt o) = satAdd (s.reg (Reg.plkEdgeMisscnt o)) 1)) ∧
    (∀ g : PluckId, (s.plucks.get g).pend = none → exec (.pluckArmTick (.gen g)) s = .next s) ∧
    (∀ g : PluckId, (s.plucks.get g).mark = false → exec (.pluckReconvert (.gen g)) s = .next s) ∧
    (∀ g : PluckId, (s.plucks.get g).mark = true → s.rBit Reg.plkGstat 19 = true → (∃ h, h ≠ g ∧ (s.plucks.get h).mark = true) →
      let c := (s.plucks.get g).cfg
      let k : TunId := Fin.ofNat 16 (fld c.ctrl 11 4)
      let x := nutOfReading (s.anchor k) (s.plucks.get g).tgt
      (s.rBit (Reg.tunCtrl k) 19 = false → ∃ t, exec (.pluckReconvert (.gen g)) s = .next t ∧ t.rBit (Reg.plkStat g) 11 = true ∧
        t.rBit (Reg.plkStat g) 19 = false ∧ (∀ h, h ≠ g → t.plucks.get h = s.plucks.get h) ∧
        t = { s with regs := t.regs, setNow := t.setNow, plucks := t.plucks } ∧ s.regsBut t [Reg.plkStat g]) ∧
      (s.rBit (Reg.tunCtrl k) 19 = true → bitOf c.ctrl 10 = false → s.nut.toNat ≤ tickOf x → tickOf x < 2 ^ 80 →
        ∃ t, exec (.pluckReconvert (.gen g)) s = .next t ∧ t.reg80 (Reg.plkNtgt g) = x ∧ t.rBit (Reg.plkStat g) 16 = false ∧
        t.rBit (Reg.plkStat g) 19 = s.rBit (Reg.plkStat g) 19 ∧ (t.plucks.get g).mark = false ∧
        (∀ h, h ≠ g → t.plucks.get h = s.plucks.get h) ∧ t = { s with regs := t.regs, setNow := t.setNow, plucks := t.plucks } ∧
        s.regsBut t (Reg.plkStat g :: wordsAt (Reg.plkNtgt g) 4)))

/-- R137, R139, R141 to R145, R159: firings of general plucks, where one is due and no re-conversion pass runs. It sets FIRED, advances SEQ,
records the tick, and disarms or advances by its period, a late one under FIRE_LATE past this tick with the periods passed over counted;
and its ACTION acts on that tick: a start request enters the course's queue, or is missed; gates open and close; every counter
is snapshotted, a record being due or, the ring full, lost; lines swap tables; an epoch of the harp is due at the end of the tick.
Nothing is due, nothing changes.
Where the spec leaves a reading open it is the model's: notes/assumptions, entry 76. -/
def Obligations.PluckFirings : Prop :=
  ∀ s : State,
    ((s.nutRun = false ∨ ∀ g, s.genDue g = false) → exec .pluckFire s = .next s) ∧
    (∀ g : PluckId, s.nutRun = true → s.nut.toNat % 163840 = 0 → s.rBit Reg.plkGstat 19 = false → s.genDue g = true →
      (∀ h, h ≠ g → s.genDue h = false) →
      let p := s.plucks.get g
      let c := p.cfg
      let fired := fun t : State => exec .pluckFire s = .next t ∧ t.rBit (Reg.plkStat g) 15 = true ∧
        t.rFld (Reg.plkStat g) 0 8 = (s.rFld (Reg.plkStat g) 0 8 + 1) % 256 ∧ t.reg80 (Reg.plkLast g) = s.nut ∧
        ∀ h, h ≠ g → t.plucks.get h = s.plucks.get h
      let done := fun t : State => t.rBit (Reg.plkStat g) 19 = false
      let one := bitOf c.ctrl 7 = false ∧ bitOf c.ctrl 10 = false
      (fld c.ctrl 16 4 = 0 → one → s.nut.toNat ≤ tickOf (s.reg80 (Reg.plkNtgt g)) → ∃ t, fired t ∧ done t ∧
        t.rBit (Reg.plkStat g) 14 = s.rBit (Reg.plkStat g) 14 ∧ t = { s with regs := t.regs, setNow := t.setNow, plucks := t.plucks } ∧
        s.regsBut t (Reg.plkStat g :: wordsAt (Reg.plkLast g) 4)) ∧
      (fld c.ctrl 16 4 = 0 → one → tickOf (s.reg80 (Reg.plkNtgt g)) < s.nut.toNat → ∃ t, fired t ∧ done t ∧ t.rBit (Reg.plkStat g) 14 = true ∧
        t.reg (Reg.plkLate g) = BitVec.ofNat 20 (min 1048575 ((s.nut.toNat - tickOf (s.reg80 (Reg.plkNtgt g))) / 163840)) ∧
        t = { s with regs := t.regs, setNow := t.setNow, plucks := t.plucks } ∧ s.regsBut t (Reg.plkStat g :: Reg.plkLate g :: wordsAt (Reg.plkLast g) 4)) ∧
      (fld c.ctrl 16 4 = 0 → bitOf c.ctrl 7 = true → bitOf c.ctrl 10 = false → bitOf c.ctrl 15 = false →
        s.nut.toNat ≤ tickOf (s.reg80 (Reg.plkNtgt g)) → ∃ t, fired t ∧ t.rBit (Reg.plkStat g) 19 = true ∧
        (t.reg80 (Reg.plkNtgt g)).toNat = (p.tgt.toNat + c.per.toNat) % 2 ^ 80 ∧ t.reg (Reg.plkMisscnt g) = s.reg (Reg.plkMisscnt g) ∧
        t = { s with regs := t.regs, setNow := t.setNow, plucks := t.plucks } ∧
        s.regsBut t (Reg.plkStat g :: Reg.plkMisscnt g :: (wordsAt (Reg.plkNtgt g) 4 ++ wordsAt (Reg.plkLast g) 4))) ∧
      (fld c.ctrl 16 4 = 0 → bitOf c.ctrl 7 = true → bitOf c.ctrl 10 = false → bitOf c.ctrl 15 = false → 65536000 ≤ c.per.toNat →
        BitVec.ofNat 80 p.tgt.toNat = s.reg80 (Reg.plkNtgt g) → tickOf (s.reg80 (Reg.plkNtgt g)) < s.nut.toNat →
        s.nut.toNat + 2 * c.per.toNat < 2 ^ 79 → ∃ t k, fired t ∧ t.rBit (Reg.plkStat g) 19 = true ∧ t.rBit (Reg.plkStat g) 14 = true ∧ 1 ≤ k ∧
        (t.reg80 (Reg.plkNtgt g)).toNat = (s.reg80 (Reg.plkNtgt g)).toNat + k * c.per.toNat ∧
        s.nut.toNat < tickOf (t.reg80 (Reg.plkNtgt g)) ∧
        (∀ j, 1 ≤ j → j < k → ((s.reg80 (Reg.plkNtgt g)).toNat + j * c.per.toNat + 163839) / 163840 * 163840 ≤ s.nut.toNat) ∧
        t.reg (Reg.plkMisscnt g) = satAdd (s.reg (Reg.plkMisscnt g)) (k - 1)) ∧
      (fld c.ctrl 16 4 = 1 → one →
        (s.crsState (plkCourse g) = CS.run → (∀ q ∈ (s.course (plkCourse g)).startQ, q.pluck ≠ g) → ∃ t, fired t ∧ done t ∧
          (t.course (plkCourse g)).startQ =
            (s.course (plkCourse g)).startQ ++ [{ pluck := g, nut := s.nut, entry := c.arg0, arg1 := c.arg1 }]) ∧
        (s.crsState (plkCourse g) = CS.run → (∃ q ∈ (s.course (plkCourse g)).startQ, q.pluck = g) → ∃ t, fired t ∧
          t.courses = s.courses ∧ t.rBit (Reg.plkStat g) 10 = true ∧
          t.reg (Reg.plkMisscnt g) = satAdd (s.reg (Reg.plkMisscnt g)) 1) ∧
        (s.crsState (plkCourse g) ≠ CS.run → ∃ t, fired t ∧ t.courses = s.courses ∧ t.rBit (Reg.plkStat g) 13 = true ∧
          t.reg (Reg.plkMisscnt g) = satAdd (s.reg (Reg.plkMisscnt g)) 1)) ∧
      (fld c.ctrl 16 4 = 2 → one → ∃ t, fired t ∧ done t ∧
        (∀ p : PickId, bitOf c.dest p.val = true → s.rBit (Reg.pickCtrl p) 19 = true → ∃ x, t.gateOf (.pick p) = some x ∧ x.opn = s.nut ∧
          x.n = 0 ∧ x.auto = s.rBit (Reg.pickGate p) 19) ∧
        (∀ p : PickId, (bitOf c.dest p.val = false ∨ s.rBit (Reg.pickCtrl p) 19 = false) → t.picks.get p = s.picks.get p) ∧
        t = { s with regs := t.regs, setNow := t.setNow, plucks := t.plucks, picks := t.picks, fmus := t.fmus }) ∧
      (fld c.ctrl 16 4 = 3 → one → ∃ t, fired t ∧ done t ∧
        (∀ p : PickId, bitOf c.dest p.val = true → s.rBit (Reg.pickCtrl p) 19 = true → t.gateOf (.pick p) = none ∧
          ∀ x, s.gateOf (.pick p) = some x →
            t.closedOf (.pick p) = s.closedOf (.pick p) ++ [{ gate := x, cls := s.nut, long := false }]) ∧
        t = { s with regs := t.regs, setNow := t.setNow, plucks := t.plucks, picks := t.picks, fmus := t.fmus }) ∧
      (fld c.ctrl 16 4 = 4 → one → s.rBit Reg.dmpCtrl 19 = true → s.rBit Reg.dmpStat 18 = false →
        6553600000 ≤ (s.nut - s.reg80 Reg.dmpLast).toNat → s.hostUp = true → (s.dumpRoom = true → ∃ t, fired t ∧ done t ∧ t.reg80 Reg.dmpLast = s.nut ∧
          t.rFld Reg.dmpSeq 0 16 = (s.rFld Reg.dmpSeq 0 16 + 1) % 65536 ∧ t.rBit Reg.dmpStat 18 = true ∧
          t.bank = s.snapRecord ((s.rFld Reg.dmpSeq 0 16 + 1) % 65536) ∧
          t = { s with regs := t.regs, setNow := t.setNow, plucks := t.plucks, bank := t.bank }) ∧
        (s.dumpRoom = false → ∃ t, fired t ∧ done t ∧ t.rBit Reg.dmpStat 18 = false ∧ t.reg Reg.dmpLost = satAdd (s.reg Reg.dmpLost) 1 ∧
          t.rBit Reg.dmpCause 18 = true ∧ t.dumpLost = true ∧ t.bank = s.snapRecord ((s.rFld Reg.dmpSeq 0 16 + 1) % 65536))) ∧
      (fld c.ctrl 16 4 = 5 → one → ∃ t, fired t ∧ done t ∧ t.rFld Reg.nutTdcStat 0 12 = (s.rFld Reg.nutTdcStat 0 12 + 1) % 4096 ∧
        (∀ l : LineId, destHasLine c.dest l = true → s.powered (lineDomain l) = true → s.rBit (Reg.nutTdcLs l) LS.ready = true →
          s.swapOk l = true → t.rBit (Reg.nutTdcLs l) LS.act = !s.rBit (Reg.nutTdcLs l) LS.act ∧ t.active l = { s.shadow l with swap := s.nut }) ∧
        ∀ l : LineId, destHasLine c.dest l = false → t.lines.get l = s.lines.get l) ∧
      (fld c.ctrl 16 4 = 6 → one → ∃ t, fired t ∧ done t ∧ t.harp = { s.harp with epochDue := true } ∧
        t = { s with regs := t.regs, setNow := t.setNow, plucks := t.plucks, harp := t.harp }))

/-- R154 to R158: edge outputs, where no re-conversion pass runs. A due edge leaves with its fine code and SEQ counts it, its trailing edge WIDTH ticks
later; one whose tick has passed, or that would fall into the running pulse, is missed. EN acts at once, and CAL_START queues a calibration.
When the edges of a calibration are complete CORR takes the mean error off and CALERR shows it, or CAL_FAIL is set and CORR stays; so it
is after 4 s without a usable edge.
Where the spec leaves a reading open it is the model's: notes/assumptions, entries 73, 77. -/
def Obligations.EdgeOutputs : Prop :=
  ∀ (s : State) (o : OutId),
    (s.edgeDue o = false → ∀ hc, exec (.edgePluckFire o hc) s = .next s) ∧
    (s.nutRun = true → s.rBit Reg.plkGstat 19 = false → s.edgeDue o = true → bitOf (s.edges.get o).pluck.cfg.ctrl 11 = false →
      let c := (s.edges.get o).pluck.cfg
      let x := s.reg80 (Reg.plkEdgeNtgt o)
      (s.edgeTick o x = (s.nut.toNat : Int) → s.pulseRuns o = false → s.squelched o = false → bitOf c.ctrl 18 = false → ∃ t,
        exec (.edgePluckFire o none) s = .next t ∧ t.rFld (Reg.plkEdgeStat o) 0 8 = (s.rFld (Reg.plkEdgeStat o) 0 8 + 1) % 256 ∧
        t.rBit (Reg.plkEdgeStat o) 19 = false ∧
        (t.edges.get o).pulse = some ⟨s.nut + BitVec.ofNat 80 (c.width.toNat * 163840), (edgeCode x (s.edgeCorr o)).2,
          x + BitVec.ofNat 80 (c.width.toNat * 163840), bitOf c.ctrl 17, false⟩ ∧
        (t.edges.get o).lead = some s.nut ∧ (∀ q, q ≠ o → t.edges.get q = s.edges.get q) ∧
        t = { s with regs := t.regs, setNow := t.setNow, edges := t.edges, irig := t.irig } ∧ s.regsBut t [Reg.plkEdgeStat o]) ∧
      (s.edgeTick o x = (s.nut.toNat : Int) → s.pulseRuns o = true → ∀ hc, ∃ t, exec (.edgePluckFire o hc) s = .next t ∧
        t.rBit (Reg.plkEdgeStat o) 15 = true ∧ t.rBit (Reg.plkEdgeStat o) 19 = false ∧ (t.edges.get o).pulse = (s.edges.get o).pulse ∧
        t.reg (Reg.plkEdgeMisscnt o) = satAdd (s.reg (Reg.plkEdgeMisscnt o)) 1 ∧
        t = { s with regs := t.regs, setNow := t.setNow, edges := t.edges } ∧ s.regsBut t [Reg.plkEdgeStat o, Reg.plkEdgeMisscnt o])) ∧
    (∀ x : Nut, ∀ corr : Int, -1023 ≤ corr → corr ≤ 1023 → x.toNat % 163840 + 163840 ≤ x.toNat → x.toNat + 327680 < 2 ^ 80 →
      let c := roundHaz ((x.toNat % 163840 : Nat) : Int) 80 + corr
      (edgeCode x corr).2 < 2048 ∧
        ((edgeCode x corr).1.toNat : Int) + 80 * (edgeCode x corr).2 = (x.toNat - x.toNat % 163840 : Nat) + 80 * c) ∧
    (∀ p : Pulse, (s.edges.get o).pulse = some p → p.low = false → (0 ≤ (s.nut - p.off).toInt → ∃ t,
      exec (.edgeTrailing o none) s = .next t ∧ t.edges.get o = { s.edges.get o with pulse := none } ∧
        (∀ q, q ≠ o → t.edges.get q = s.edges.get q) ∧ t = { s with edges := t.edges }) ∧
      ((s.nut - p.off).toInt < 0 → exec (.edgeTrailing o none) s = .next s)) ∧
    (∀ v : Word, s.hostOpen (Reg.plkEdgeCtrl o) = true → bitOf v 19 = true → s.rBit (Reg.plkEdgeStat o) 19 = false →
      ∃ t, exec (.edgeEnWrite o v) s = .next t ∧ t.reg (Reg.plkEdgeCtrl o) &&& 0xFF800 = v &&& 0xFF800 ∧ s.onlyRegs t [Reg.plkEdgeCtrl o]) ∧
    (s.hostOpen (Reg.plkEdgeCmd o) = true → s.house.calOut = none → s.house.calWait = [] → ∃ t, exec (.edgeCalStart o) s = .next t ∧
      t.house.calOut = some o ∧ t.house.calWait = [] ∧ t.rBit (Reg.plkEdgeStat o) 13 = true ∧ t.rBit Reg.pickHc0Ctrl 18 = true ∧
      t.rFld Reg.pickHc0Ctrl 0 3 = o.val ∧ t = { s with regs := t.regs, setNow := t.setNow, house := t.house } ∧
      s.regsBut t [Reg.plkEdgeStat o, Reg.pickHc0Ctrl]) ∧
    (s.house.calOut = some o → s.house.calN = 2 ^ s.rFld (Reg.plkEdgeCal o) 16 3 → s.house.calWait = [] → s.house.heldSel = none →
      s.rBit (Reg.plkEdgeCal o) 19 = false →
      let m := roundHaz s.house.calSum (s.house.calN : Int)
      let corr := s.rSfld (Reg.plkEdgeCal o) 0 11 - roundHaz m 80
      ∃ t, exec (.edgeCalComplete o) s = .next t ∧ t.house.calOut = none ∧ t.rBit (Reg.plkEdgeStat o) 13 = false ∧
        t.rBit Reg.pickHc0Ctrl 18 = false ∧ t = { s with regs := t.regs, setNow := t.setNow, house := t.house } ∧
        (m.natAbs ≤ 65536 → corr.natAbs ≤ 1023 → t.rSfld (Reg.plkEdgeCal o) 0 11 = corr ∧ t.rBit (Reg.plkEdgeStat o) 12 = true ∧
          (t.reg (Reg.plkEdgeCalerr o)).toInt = m) ∧
        (65536 < m.natAbs ∨ 1023 < corr.natAbs → t.reg (Reg.plkEdgeCal o) = s.reg (Reg.plkEdgeCal o) ∧
          t.rBit (Reg.plkEdgeStat o) 11 = true)) ∧
    (s.house.calOut = some o → (s.nut - (s.house.calFrom + BitVec.ofNat 80 (4 * 65536000000000))).toInt < 0 →
      exec (.edgeCalTimeout o) s = .next s) ∧
    (s.house.calOut = some o → 0 ≤ (s.nut - (s.house.calFrom + BitVec.ofNat 80 (4 * 65536000000000))).toInt → s.house.calWait = [] →
      s.house.heldSel = none → s.rBit (Reg.plkEdgeCal o) 19 = false → ∃ t, exec (.edgeCalTimeout o) s = .next t ∧
        t.rBit (Reg.plkEdgeStat o) 11 = true ∧ t.reg (Reg.plkEdgeCal o) = s.reg (Reg.plkEdgeCal o) ∧ t.house.calOut = none)

/-! ### The bridge -/

/-- Selection is to run at the end of the tick (R172); `rank`: a rank has changed. Nothing else of the bridge's own state changes. -/
def Sys2Proof.Machine.State.selects (s u : State) (rank : Bool) : Prop :=
  u.bridge = { s.bridge with selDue := some (rank || s.bridge.selDue.getD false) }

/-- From `s` to `u` only the registers of slot r and BRG_CAUSE, slot r's own state, and what the bridge has due, change. -/
def Sys2Proof.Machine.State.onlySlot (s u : State) (r : SlotId) (l : List Nat) : Prop :=
  u = { s with regs := u.regs, setNow := u.setNow, slots := u.slots, bridge := u.bridge } ∧ (∀ q, q ≠ r → u.slots.get q = s.slots.get q) ∧
    s.regsBut u (Reg.brgRsStat r :: Reg.brgCause :: l)

/-- R169, R171, R172, R175: the timers of slot r. No accepted sample for BRG_RS_TMO ms raises NO_SAMPLE: a slot that steers holds off where
BRG_HOLDOFF is above 0, and any other goes to FAULT and owes a wait-to-restore where it has been AVAILABLE. A timer that expires takes
effect at the end of its tick, after the tick's events and only where they have not undone what it watched: hold-off with a fault takes
the slot to FAULT; QUAL_TIME without a fault takes it to WTR where a wait-to-restore is owed and else to AVAILABLE; BRG_WTR takes it to
AVAILABLE. Selection then runs once. A timer that is not due changes nothing. -/
def Sys2Proof.Machine.SlotTimersRule : Prop :=
  ∀ (s : State) (r : SlotId),
    let st := Reg.brgRsStat r
    let x := s.slots.get r
    let due := fun (t : Nut) (units : Nat) => 0 ≤ (s.nut - (t + BitVec.ofNat 80 (units * 65536000000))).toInt
    let timers := [Instr.holdoffExpiry r, .qualExpiry r, .wtrExpiry r]
    let waits := fun (c : Instr) => ∃ u, exec c s = .next u ∧ u.slots.get r = { x with due := true } ∧ s.selects u false ∧
      (∀ q, q ≠ r → u.slots.get q = s.slots.get q) ∧ u = { s with slots := u.slots, bridge := u.bridge }
    let ends := fun (p : State → Prop) => ∀ rank, s.bridge.selDue = some rank → x.due = true →
      (∀ q, q ≠ r → (s.slots.get q).due = false) → ∃ u : State, s.bridgeEndTick = u.runSelect rank ∧ (u.slots.get r).due = false ∧
        u.bridge = { s.bridge with selDue := none } ∧ s.onlySlot u r [] ∧ p u
    (∀ c ∈ Instr.sampleTimeout r :: timers, s.rsState r = RS.disabled → x.hold = none → exec c s = .next s) ∧
    (s.rsState r ≠ RS.disabled → s.rBit st RF.noSample = false → ¬ due x.fedAt (s.reg (Reg.brgRsTmo r)).toNat →
      exec (.sampleTimeout r) s = .next s) ∧
    (s.rsState r ≠ RS.disabled → s.rBit st RF.noSample = false → due x.fedAt (s.reg (Reg.brgRsTmo r)).toNat →
      ∃ u : State, exec (.sampleTimeout r) s = .next u ∧ s.selects u false ∧ u.rBit st RF.noSample = true ∧ s.onlySlot u r [] ∧
        (s.rsSteers r = true → s.rFld st 7 5 = 0 → x.expired = false → s.reg Reg.brgHoldoff ≠ 0 → s.rBit st 16 = false →
          u.rsState r = s.rsState r ∧ u.rBit st 16 = true ∧ (u.slots.get r).hold = some s.nut) ∧
        ((s.rsSteers r = false ∨ s.reg Reg.brgHoldoff = 0) → u.rsState r = RS.fault ∧
          (s.rsState r ≠ RS.fault → x.been = true → u.rBit st 3 = true))) ∧
    (∀ t, x.hold = some t → s.rBit st 16 = true → s.rFld st 7 9 ≠ 0 →
      (due t (s.rFld Reg.brgHoldoff 0 14) → waits (.holdoffExpiry r) ∧ ends fun u => u.rsState r = RS.fault ∧
        u.rBit st 16 = false ∧ (x.been = true → u.rBit st 3 = true)) ∧
      (¬ due t (s.rFld Reg.brgHoldoff 0 14) → exec (.holdoffExpiry r) s = .next s)) ∧
    (∀ t, x.timer = some t → s.rFld st 7 9 = 0 → s.rsState r = RS.qualifying →
      (due t (1000 * s.rFld Reg.brgQualTime 0 10) → waits (.qualExpiry r) ∧
        ends fun u => u.rsState r = (if s.rBit st 3 then RS.wtr else RS.available)) ∧
      (¬ due t (1000 * s.rFld Reg.brgQualTime 0 10) → exec (.qualExpiry r) s = .next s)) ∧
    (∀ t, x.timer = some t → s.rFld st 7 9 = 0 → s.rsState r = RS.wtr →
      (due t (1000 * s.rFld Reg.brgWtr 0 12) → waits (.wtrExpiry r) ∧ ends fun u => u.rsState r = RS.available ∧ u.rBit st 3 = false) ∧
      (¬ due t (1000 * s.rFld Reg.brgWtr 0 12) → exec (.wtrExpiry r) s = .next s)) ∧
    (∀ t, x.timer = some t → s.rFld st 7 9 ≠ 0 → exec (.qualExpiry r) s = .next s ∧ exec (.wtrExpiry r) s = .next s) ∧
    (s.rFld st 7 9 ≠ 0 → s.rBit st 16 = false → ends fun u => u.rsState r = s.rsState r ∧ u.regs = s.regs) ∧
    (s.bridge.selDue = none → s.bridgeEndTick = s)

/-- R161, R163, R169, R171, R173 to R179, R181: selection and what leads to it. A vote tick sets y_n and FREQ of each slot and
votes; what changes a slot, a rank or the mode has selection run at the end of its tick; the end of a cross-check writes its mean and PASS or FAIL; a BRG_RS_CFG write of a reserved SRC is refused and a new source
starts the slot afresh; CLEAR clears ASYM; MODE 3 is refused. From HOLDOVER or FREERUN selection switches to the best-ranked candidate; a
better one displaces the incumbent only in revertive mode; with none, HOLDOVER is entered. -/
def Sys2Proof.Machine.VotesAndSelectionRule : Prop :=
  ∀ s : State,
    (s.nutRun = false ∨ s.nut.toNat % 65536000000000 ≠ 0 → exec .voteTick s = .next s) ∧
    (s.nutRun = true → s.nut.toNat % 65536000000000 = 0 → ∃ v u : State, exec .voteTick s = .next u ∧ s.selects u false ∧
      (∀ r : SlotId, (s.rsState r = RS.disabled → v.reg (Reg.brgRsStat r) = s.reg (Reg.brgRsStat r)) ∧
        (s.rsState r ≠ RS.disabled → s.slotFreq r = none → v.rBit (Reg.brgRsStat r) 2 = false) ∧
        (∀ y, s.rsState r ≠ RS.disabled → s.slotFreq r = some y → v.rBit (Reg.brgRsStat r) 2 = true ∧
          v.reg40 (Reg.brgRsFreq r) = satSigned 40 y ∧
          v.rBit (Reg.brgRsStat r) RF.freq = modelFar s.mHat (satSigned 40 y).toInt ((s.reg (Reg.brgRsFlim r)).toNat * 10000))) ∧
      let q := (List.finRange 16).filter v.qualified
      (v.disagreeing q = none → u.rBit Reg.brgSelStat 16 = false ∧
        ∀ r, u.rBit (Reg.brgRsStat r) RF.outvoted = true → v.rBit (Reg.brgRsStat r) RF.outvoted = true) ∧
      (∀ a b, v.disagreeing q = some (a, b) → 3 ≤ q.length →
        ((∃ r ∈ q, v.upheld q r = true) → u.rBit Reg.brgSelStat 16 = false ∧
          ∀ r ∈ q, u.rBit (Reg.brgRsStat r) RF.outvoted = !v.upheld q r) ∧
        ((∀ r ∈ q, v.upheld q r = false) → u.rBit Reg.brgSelStat 16 = true)) ∧
      (∀ a b, v.disagreeing q = some (a, b) → q.length = 2 → u.rBit Reg.brgSelStat 16 = true ∧
        (v.apart a b v.voteDisq = true → u.rBit (Reg.brgRsStat a) RF.suspect = true ∧ u.rBit (Reg.brgRsStat b) RF.suspect = true))) ∧
    (∀ (r : SlotId) (t : Nut), (s.slots.get r).route = some t →
      ((s.nut - (t + BitVec.ofNat 80 (s.rFld Reg.brgQualTime 0 10 * 65536000000000))).toInt < 0 → exec (.xchkEnd r) s = .next s) ∧
      (0 ≤ (s.nut - (t + BitVec.ofNat 80 (s.rFld Reg.brgQualTime 0 10 * 65536000000000))).toInt →
        ∃ u : State, exec (.xchkEnd r) s = .next u ∧ s.selects u false ∧ u.rBit (Reg.brgRsStat r) RF.route = false ∧
          (u.slots.get r).route = none ∧
          ((s.slots.get r).xref = none → u.rFld (Reg.brgRsStat r) 4 2 = 0) ∧
          ((s.slots.get r).xref.isSome = true → (s.slots.get r).xN ≠ 0 → (s.slots.get r).gN ≠ 0 →
            let x := s.slots.get r
            let m := roundHaz (x.xSum * x.gN - x.gSum * x.xN) (x.xN * x.gN : Nat)
            BitVec.ofNat 60 (u.regN (Reg.brgRsXchk r) 3) = satSigned 60 m ∧
            (m.natAbs ≤ (s.reg (Reg.brgRsXlim r)).toNat * 65536 → u.rFld (Reg.brgRsStat r) 4 2 = 2) ∧
            ((s.reg (Reg.brgRsXlim r)).toNat * 65536 < m.natAbs → u.rFld (Reg.brgRsStat r) 4 2 = 3 ∧
              u.rBit (Reg.brgRsStat r) RF.asym = true)))) ∧
    (∀ (r : SlotId) (v : Word), s.hostOpen (Reg.brgRsCfg r) = true →
      let ranks := decide (fld v 6 8 ≠ s.rFld (Reg.brgRsCfg r) 6 8)
      (5 ≤ fld v 17 3 → ∃ t, exec (.rsCfgWrite r v) s = .next t ∧ t.rBit Reg.brgSelCtrl 16 = true ∧ s.onlyRegs t [Reg.brgSelCtrl]) ∧
      (fld v 17 3 = 0 → ∃ u : State, exec (.rsCfgWrite r v) s = .next u ∧ s.selects u ranks ∧ u.reg (Reg.brgRsCfg r) = v &&& 0xFFFF0 ∧
        (s.rFld (Reg.brgRsCfg r) 17 3 ≠ 0 → u.rsState r = RS.disabled ∧ u.rFld (Reg.brgRsStat r) 7 9 = 0)) ∧
      (1 ≤ fld v 17 3 → fld v 17 3 ≤ 4 → fld v 17 3 ≠ s.rFld (Reg.brgRsCfg r) 17 3 → fld v 6 4 ≠ 15 →
        (∀ p : PickId, s.rBit (Reg.pickStat p) 19 = false) → (∀ f : FmuId, s.rBit (Reg.brgFmuStat f) 19 = false) →
        ∃ u : State, exec (.rsCfgWrite r v) s = .next u ∧ s.selects u ranks ∧ u.reg (Reg.brgRsCfg r) = v &&& 0xFFFF0 ∧
          u.rsState r = RS.qualifying ∧ u.rFld (Reg.brgRsStat r) 7 9 = 0 ∧ u.rBit (Reg.brgRsStat r) 3 = false ∧
          u.rBit (Reg.brgRsStat r) 2 = false ∧ u.regN (Reg.brgRsFreq r) 2 = 0 ∧ (u.slots.get r).got = false ∧
          (∀ q, q ≠ r → u.slots.get q = s.slots.get q))) ∧
    (∀ r : SlotId, s.hostOpen (Reg.brgRsCmd r) = true → ∃ u : State, exec (.rsClear r) s = .next u ∧ s.selects u false ∧
      u.rBit (Reg.brgRsStat r) RF.asym = false ∧
      (s.rsState r = RS.fault → s.rFld (Reg.brgRsStat r) 8 8 = 0 → u.rsState r = RS.qualifying) ∧ s.onlySlot u r []) ∧
    (∀ v : Word, s.hostOpen Reg.brgSelCtrl = true →
      (fld v 18 2 = 3 → ∃ t, exec (.selCtrlWrite v) s = .next t ∧ t.rBit Reg.brgSelCtrl 16 = true ∧ s.onlyRegs t [Reg.brgSelCtrl]) ∧
      (fld v 18 2 ≠ 3 → ∃ u : State, exec (.selCtrlWrite v) s = .next u ∧ s.selects u false ∧ u.rFld Reg.brgSelCtrl 17 3 = fld v 17 3 ∧
        u.rFld Reg.brgSelCtrl 12 4 = fld v 12 4 ∧
        u = { s with regs := u.regs, setNow := u.setNow, bridge := u.bridge } ∧ s.regsBut u [Reg.brgSelCtrl])) ∧
    (∀ b, (s.selState = BS.freerun ∨ s.selState = BS.holdover) → s.rFld Reg.brgSelCtrl 18 2 = 2 → s.runSelect b = s) ∧
    (∀ b, (s.selState = BS.freerun ∨ s.selState = BS.holdover) → s.rFld Reg.brgSelCtrl 18 2 = 0 →
      ((∀ r, s.rsCandidate r = false) → s.runSelect b = s) ∧
      ∀ r, s.rsCandidate r = true →
        (∀ q, s.rsCandidate q = true → s.rsRank r < s.rsRank q ∨ (s.rsRank r = s.rsRank q ∧ r.val ≤ q.val)) →
        (s.runSelect b).selState = BS.switching ∧ (s.runSelect b).selSlot = r ∧
          (s.runSelect b).reg Reg.brgSwCnt = satAdd (s.reg Reg.brgSwCnt) 1) ∧
    (∀ b, s.selState = BS.tracking → s.rFld Reg.brgSelCtrl 18 2 = 0 → s.rsState s.selSlot = RS.selected → s.rsHeld s.selSlot = false →
      s.rsCandidate s.selSlot = true →
      (s.rBit Reg.brgSelCtrl 17 = false → s.runSelect b = s) ∧
      ∀ r, s.rBit Reg.brgSelCtrl 17 = true → s.rsCandidate r = true → s.rsRank r < s.rsRank s.selSlot →
        (∀ q, s.rsCandidate q = true → s.rsRank r < s.rsRank q ∨ (s.rsRank r = s.rsRank q ∧ r.val ≤ q.val)) →
        (s.runSelect b).selState = BS.switching ∧ (s.runSelect b).selSlot = r ∧
          (s.runSelect b).rsState s.selSlot ≠ RS.selected) ∧
    (∀ b, s.selState = BS.tracking → s.rsState s.selSlot ≠ RS.selected → s.rFld Reg.brgSelCtrl 18 2 = 0 →
      (∀ r, s.rsCandidate r = false) → s.bridge.tracked = true → (s.runSelect b).selState = BS.holdover ∧
        (s.runSelect b).bridge.hoAt = s.nut)

/-- R185, R186, R188, R194 to R197, R205: the update tick and the second tick. On a tick that is a multiple of 1 ms r_f follows the
selection state, held to ±5×10⁻⁴, with LIMIT while it is at a limit; r is r_f with the residue carried, never more than half a unit, and T0
then runs at r where that takes no child of T0 out of range (R54), and else r stays (the model's reading of R25, log entry 160); each
synthesiser's M' follows the same r and is rounded with its residue. A second that TRACKING filled is stored, newest first, no other
is; in HOLDOVER h and E(h) are shown.
Where the spec leaves a reading open it is the model's: notes/assumptions, entries 94, 98, 106, 159, 160. -/
def Obligations.LoopUpdates : Prop :=
  ∀ s : State,
    (s.nutRun = false ∨ s.nut.toNat % 65536000000 ≠ 0 ∨ s.bridge.updAt = some s.nut → exec .dpllUpdate s = .next s) ∧
    (s.nutRun = true → s.nut.toNat % 65536000000 = 0 → s.bridge.updAt ≠ some s.nut →
      (s.selState = BS.freerun ∨ s.selState = BS.holdover ∨ s.selState = BS.holdoff ∨
        (s.selState = BS.tracking ∧ s.isTimeSlot s.selSlot = false)) →
      let drift := driftRate s.bridge.hoR s.bridge.hoA s.bridge.hoTc s.nut
      let x : Int :=
        if s.selState = BS.freerun then (s.reg40 Reg.brgFreeRate).toInt * 65536
        else if s.selState = BS.holdover then roundHaz (drift.num * 65536) drift.den
        else f60Near (f60Mul s.bridge.integ (f60Int 65536))
      let rf := max (-3276800000000000) (min 3276800000000000 x)
      let w := s.bridge.res + rf
      let cur := (s.reg40 (Reg.tunAncRate 0)).toInt
      let r := roundHaz w 65536
      let ok := r = cur ∨ ∀ k : TunId, s.isChild k = true → fitsSigned 40 (r + (s.reg40 (Reg.tunAncRate k)).toInt) = true
      ∃ (t : State) (q : Int), exec .dpllUpdate s = .next t ∧ t.bridge.rf = rf ∧ t.bridge.updAt = some s.nut ∧
        (ok → q = r ∧ t.bridge.res = w - r * 65536 ∧ 2 * t.bridge.res.natAbs ≤ 65536) ∧ (¬ ok → q = cur ∧ t.bridge.res = s.bridge.res) ∧
        (t.reg40 Reg.brgSteer).toInt = q ∧ (t.reg40 (Reg.tunAncRate 0)).toInt = q ∧
        t.rBit Reg.brgLoopStat 15 = decide (rf = 3276800000000000 ∨ rf = -3276800000000000) ∧
        (∀ f : FoutId, let v := (s.synths.get ⟨f.val, by omega⟩).res + (s.regN (Reg.brgFoutM f) 3 % 2 ^ 54 : Nat) * (100000000000000 + q)
          (t.synths.get ⟨f.val, by omega⟩).mp = (roundHaz v 100000000000000).toNat ∧
          (t.synths.get ⟨f.val, by omega⟩).res = v - roundHaz v 100000000000000 * 100000000000000)) ∧
    (s.nutRun = false ∨ s.nut.toNat % 65536000000000 ≠ 0 → exec .bridgeSecondTick s = .next s) ∧
    (s.nutRun = true → s.nut.toNat % 65536000000000 = 0 → ∃ t, exec .bridgeSecondTick s = .next t ∧ t.bridge.accI = 0 ∧ t.bridge.accN = 0 ∧
      t.bridge.accBad = decide (s.selState ≠ BS.tracking) ∧
      (s.bridge.accBad = false → s.bridge.accN = 1000 →
        t.bridge.secs = ((s.nut - 65536000000000, s.bridge.accI) :: s.bridge.secs).take 604800) ∧
      (s.bridge.accBad = true ∨ s.bridge.accN ≠ 1000 → t.bridge.secs = s.bridge.secs) ∧
      t.rBit Reg.brgHoStat 16 = decide (60 ≤ t.bridge.secs.length) ∧
      (s.selState = BS.holdover → let h := (s.nut - s.bridge.hoAt).toNat / 65536000000000
        h < 2 ^ 40 → t.regN Reg.brgHoElapsed 2 = h ∧
        t.regN Reg.brgHoTe 2 = min (2 ^ 40 - 1) (roundHaz
          (s.bridge.hoE0 * 100000 * 172800 + s.regN Reg.brgOscUrate 2 * h * 65536 * 172800 +
            (s.reg Reg.brgOscUage).toNat * h * h * 65536 : Nat) (65536 * 100000 * 172800 : Nat)).toNat))

/-- R199 to R201: leaving FREERUN or HOLDOVER by a step. GO under STEP_REQ starts a step sequence of −d of the latest sample, NOSTEP slews
from it; neither acts without STEP_REQ. The sequence squelches the outputs of T0 and its children at Q, offers its STEP commit in the
host's place 100,000,000 ticks later, and ends 400,000,000 ticks after Q; an unsequenced commit's squelch ends on its own.
Where the spec leaves a reading open it is the model's: notes/assumptions, entry 96. -/
def Obligations.StepSequence : Prop :=
  ∀ s : State,
    (s.hostOpen Reg.brgStepCmd = true → s.rBit Reg.brgLoopStat 17 = false →
      exec .stepGo s = .next s ∧ exec .stepNostep s = .next s) ∧
    (s.hostOpen Reg.brgStepCmd = true → s.rBit Reg.brgLoopStat 17 = true → s.rBit Reg.brgLoopStat 16 = false →
      ∃ t, exec .stepGo s = .next t ∧ t.rBit Reg.brgLoopStat 16 = true ∧ t.rBit Reg.brgLoopStat 17 = false ∧
        BitVec.ofNat 60 (t.regN Reg.brgStepVal 3) = satSigned 60 (-s.bridge.lastD) ∧ t.bridge.stepAt = some s.nut ∧
        t = { s with regs := t.regs, setNow := t.setNow, bridge := t.bridge } ∧ s.regsBut t (Reg.brgLoopStat :: wordsAt Reg.brgStepVal 3)) ∧
    (s.hostOpen Reg.brgStepCmd = true → s.rBit Reg.brgLoopStat 17 = true → ∃ t, exec .stepNostep s = .next t ∧
      t.rBit Reg.brgLoopStat 17 = false ∧ t.bridge.phi = phaseSec s.bridge.lastD ∧ t.bridge.fonly = false ∧
      t.rBit Reg.brgLoopStat 19 = decide (f60Sign t.bridge.phi ≠ 0) ∧ t.bridge.integ = s.bridge.integ) ∧
    (∀ n, s.bridge.stepAt = some n → s.bridge.stepQ = none →
      ((s.nut - (n + 655360000000)).toInt < 0 ∨ s.halfSecond s.nut = false → exec .stepSquelchStart s = .next s) ∧
      (0 ≤ (s.nut - (n + 655360000000)).toInt → s.halfSecond s.nut = true → ∃ t, exec .stepSquelchStart s = .next t ∧
        t.bridge = { s.bridge with stepQ := some s.nut } ∧
        (∀ o : OutId, (t.edges.get o).step = ((s.edges.get o).step || ((s.outBaseTun o).1 && s.tunMoved 0 (s.outBaseTun o).2))) ∧
        t = { s with bridge := t.bridge, edges := t.edges })) ∧
    (∀ q, s.bridge.stepQ = some q →
      ((s.nut - (q + 16384000000000)).toInt < 0 ∨ s.bridge.stepped = true → exec .stepCommit s = .next s) ∧
      (0 ≤ (s.nut - (q + 16384000000000)).toInt → s.bridge.stepped = false → (s.tunings.get 0).host = none → s.isVoid 55 = false →
        ∃ t c, exec .stepCommit s = .next t ∧ t.bridge = { s.bridge with stepped := true } ∧
          t.reg100 (Reg.tunNewVal 0) = ftOfUnits ((BitVec.ofNat 60 (s.regN Reg.brgStepVal 3)).toInt * 64) ∧
          (t.tunings.get 0).host = some c ∧ c.kind = 2 ∧ c.seq = true ∧ c.val = t.reg100 (Reg.tunNewVal 0) ∧
          t.rBit (Reg.tunStatus 0) 17 = true ∧
          t = { s with regs := t.regs, setNow := t.setNow, bridge := t.bridge, tunings := t.tunings, flight := t.flight } ∧
          s.regsBut t (Reg.tunStatus 0 :: wordsAt (Reg.tunNewVal 0) 5)) ∧
      ((s.nut - (q + 65536000000000)).toInt < 0 → exec .stepSeqEnd s = .next s) ∧
      (0 ≤ (s.nut - (q + 65536000000000)).toInt → ∃ t, exec .stepSeqEnd s = .next t ∧ t.rBit Reg.brgLoopStat 16 = false ∧
        t.bridge = { s.bridge with stepAt := none, stepQ := none, stepped := false } ∧ (∀ o : OutId, (t.edges.get o).step = false) ∧
        t = { s with regs := t.regs, setNow := t.setNow, bridge := t.bridge, edges := t.edges } ∧ s.regsBut t [Reg.brgLoopStat])) ∧
    (s.bridge.stepAt = none → exec .stepSquelchStart s = .next s) ∧
    (s.bridge.stepQ = none → exec .stepCommit s = .next s ∧ exec .stepSeqEnd s = .next s) ∧
    (∀ (o : OutId) (n : Nut), (s.edges.get o).unseq = some n →
      (0 ≤ (s.nut - n).toInt → ∃ t, exec (.unseqSquelchEnd o) s = .next t ∧ t.edges.get o = { s.edges.get o with unseq := none } ∧
        (∀ q, q ≠ o → t.edges.get q = s.edges.get q) ∧ t = { s with edges := t.edges }) ∧
      ((s.nut - n).toInt < 0 → exec (.unseqSquelchEnd o) s = .next s))

/-- R205, R206, R209 to R213: frequency outputs, IRIG-B and time-of-day records. A commit of M or DIV in its range restarts the synthesiser
unlocked, one outside it is refused; M' then carries the r in force. LOCK follows the PLL: its clock runs from an open
phase, gated until it rises. The control functions are latched 100 ms before each second; an element's
edge comes at its offset and the last ends the frame. A record starts once DELAY ms have passed since a second's on-time point, once, unless its edge was lost or it
cannot end in time.
Where the spec leaves a reading open it is the model's: notes/assumptions, entries 42, 84, 85, 86, 88, 161. -/
def Obligations.OutputSignals : Prop :=
  ∀ s : State,
    (∀ (f : FoutId) (v : Word), s.hostOpen (Reg.brgFoutM f) = true →
      let m : Nat := s.commitValue (Reg.brgFoutM f) 3 v % 2 ^ 54
      let mr : Int := (m : Int) * (100000000000000 + (s.reg40 Reg.brgSteer).toInt)
      (45 * 2 ^ 46 ≤ m → m ≤ 15 * 2 ^ 48 → ∃ t, exec (.foutCommit f false v) s = .next t ∧ t.regN (Reg.brgFoutM f) 3 = m ∧
        t.rBit (Reg.brgFoutCtrl f) 15 = false ∧ (t.synths.get ⟨f.val, by omega⟩).mp = (roundHaz mr 100000000000000).toNat ∧
        (t.synths.get ⟨f.val, by omega⟩).res = mr - roundHaz mr 100000000000000 * 100000000000000 ∧ (t.foutClk.get f).gated = true ∧
        t = { s with regs := t.regs, setNow := t.setNow, synths := t.synths, foutClk := t.foutClk, wrShadow := t.wrShadow } ∧
        s.regsBut t (Reg.brgFoutCtrl f :: wordsAt (Reg.brgFoutM f) 3)) ∧
      (m < 45 * 2 ^ 46 ∨ 15 * 2 ^ 48 < m → ∃ t, exec (.foutCommit f false v) s = .next t ∧ t.rBit (Reg.brgFoutCtrl f) 13 = true ∧
        t = { s with regs := t.regs, setNow := t.setNow, wrShadow := t.wrShadow } ∧ s.regsBut t [Reg.brgFoutCtrl f])) ∧
    (∀ (f : FoutId) (v : Word), s.hostOpen (Reg.brgFoutDiv f) = true →
      let d := s.commitValue (Reg.brgFoutDiv f) 2 v % 2 ^ 40
      (6 ≤ d → ∃ t, exec (.foutCommit f true v) s = .next t ∧ t.regN (Reg.brgFoutDiv f) 2 = d ∧ t.rBit (Reg.brgFoutCtrl f) 15 = false) ∧
      (d < 6 → ∃ t, exec (.foutCommit f true v) s = .next t ∧ t.rBit (Reg.brgFoutCtrl f) 13 = true ∧
        t = { s with regs := t.regs, setNow := t.setNow, wrShadow := t.wrShadow } ∧ s.regsBut t [Reg.brgFoutCtrl f])) ∧
    (∀ f : FoutId, (s.rBit (Reg.brgFoutCtrl f) 19 = true → ∃ t, exec (.foutPllLock f) s = .next t ∧ t.rBit (Reg.brgFoutCtrl f) 15 = true ∧
        (t.foutClk.get f).gated = true ∧ (t.foutClk.get f).acc < s.foutPeriod f ∧ (∀ k, k ≠ f → t.foutClk.get k = s.foutClk.get k) ∧
        t = { s with regs := t.regs, setNow := t.setNow, foutClk := t.foutClk, freeCtr := t.freeCtr } ∧ s.regsBut t [Reg.brgFoutCtrl f]) ∧
      (s.rBit (Reg.brgFoutCtrl f) 19 = false → exec (.foutPllLock f) s = .next s)) ∧
    (s.nutRun = true → s.tenthBefore s.irigTun = true →
      exec .irigCfLatch s = .next { s with irigCf := BitVec.ofNat 27 (s.regN Reg.brgIrigCf 2) }) ∧
    (s.tenthBefore s.irigTun = false → exec .irigCfLatch s = .next s) ∧
    (∀ (o : OutId) (f : IrigFrame), s.irig.get o = some f → s.hc0Watches o = false →
      ((s.nut - (f.at_ + irigOffset f.el f.edge)).toInt < 0 → exec (.irigElementEdge o none) s = .next s) ∧
      (0 ≤ (s.nut - (f.at_ + irigOffset f.el f.edge)).toInt → ∃ t, exec (.irigElementEdge o none) s = .next t ∧
        (f.edge = 199 → t.irig.get o = none) ∧
        (f.edge ≠ 199 → t.irig.get o = some { f with edge := f.edge + 1, high := (f.edge % 2 == 0 && s.rBit (Reg.plkEdgeCtrl o) 19) }) ∧
        (∀ q, q ≠ o → t.irig.get q = s.irig.get q) ∧ t = { s with irig := t.irig })) ∧
    (∀ u : Fin 2, s.nutRun = true → s.rBit (Reg.brgTodCtrl u) 19 = true →
      let out : OutId := Fin.ofNat 8 (s.rFld (Reg.brgTodCtrl u) 10 3)
      let x := s.onTime (s.todTun u) (s.nut - BitVec.ofNat 80 (s.rFld (Reg.brgTodCtrl u) 0 10 * 65536000000))
      let q := s.secondAt (s.todTun u) x
      let sec := (q.1 % (2 : Int) ^ 48).toNat
      let bytes := if s.rBit (Reg.brgTodCtrl u) 18 then s.todRecord u sec else zdaRecord (s.rBit (Reg.brgTodCtrl u) 17) sec q.2
      let dur := BitVec.ofNat 80 (bytes.length * 10 * 65536000000000 / baudRate (s.rFld (Reg.brgTodBaud u) 0 3))
      let d := s.tods.get u
      (d.sec.any (sameSecond x) = true → exec (.todRecordStart u) s = .next s) ∧
      (d.sec.any (sameSecond x) = false → ∃ t, exec (.todRecordStart u) s = .next t ∧ (∀ w, w ≠ u → t.tods.get w = s.tods.get w) ∧
        (s.edgeLost out x = true → t.tods.get u = { d with sec := some x } ∧ t = { s with tods := t.tods }) ∧
        (s.edgeLost out x = false → 0 ≤ (s.nut - d.until_).toInt → dur.toNat < 65536000000000 →
          t.tods.get u = { sec := some x, sent := bytes, until_ := s.nut + dur, step := false } ∧ t = { s with tods := t.tods }) ∧
        (s.edgeLost out x = false → ((s.nut - d.until_).toInt < 0 ∨ 65536000000000 ≤ dur.toNat) →
          t.tods.get u = { d with sec := some x } ∧ t.rBit Reg.brgLcause 15 = true ∧
          t = { s with tods := t.tods, regs := t.regs, setNow := t.setNow } ∧ s.regsBut t [Reg.brgLcause]))) ∧
    (∀ u : Fin 2, s.rBit (Reg.brgTodCtrl u) 19 = false → exec (.todRecordStart u) s = .next s)


/-- R161, R163, R169, R171 to R179, R181: the reference slots' timers, the votes and the selection.
Where the spec leaves a reading open it is the model's: notes/assumptions, entries 99, 100, 101, 102. -/
def Obligations.ReferenceSlots : Prop := Sys2Proof.Machine.SlotTimersRule ∧ Sys2Proof.Machine.VotesAndSelectionRule

/-! ### The harp -/

/-- The strum has nothing to start while HARP_CLK runs: a main pass runs, or nothing waits (R229, R232). -/
def Sys2Proof.Machine.Harp.settled (v : Harp) : Prop := v.mainOn = true ∨ (v.wins = [] ∧ v.run = none ∧ v.queue = [])

/-- The nut value of this tick ends a window of 2¹⁹ ticks that has not been counted yet (R91, R219). -/
def Sys2Proof.Machine.State.clkTick (s : State) : Prop :=
  s.nutRun = true ∧ s.nut.toNat % (524288 * 163840) = 0 ∧ s.harp.clkWin ≠ some s.nut

/-- R217, R219 to R222, R225, R244: the harp's input. A window count within 16 of nominal sets CLK_OK and restarts SI; any other, or a
silent input, clears CLK_OK with CLK_LOS, sends every channel that is not IDLE to LOST, clears MAP_VALID and ends the running search. Each
2²⁰ samples give a band's CLIP, per 1,024, and its RMS in 1/64 code (both rounded down and SI at their end a multiple of 2²⁰ are the
model's choice, log entry 186). A marker counts only while the clock runs; SI is 0 at the first. A fit replaces the map's fields together
with its SEQ; a read of HARP_SI0 captures SI; EN written from 1 to 0 resets the harp but keeps its memory.
Where the spec leaves a reading open it is the model's: notes/assumptions, entries 29, 115, 125, 186, 190. -/
def Obligations.HarpInput : Prop :=
  ∀ s : State,
    (s.harpOn = false → (∀ n, exec (.harpClkWindow n) s = .next s) ∧ exec .harpClkTimeout s = .next s ∧ exec .harpMarker s = .next s ∧
      ∀ b rs si, exec (.bandStatWindow b rs si) s = .next s) ∧
    (¬ s.clkTick → ∀ n, exec (.harpClkWindow n) s = .next s) ∧
    (∀ n, s.harpOn = true → s.clkTick → 80436 ≤ n → n ≤ 80468 →
      (s.clkOk = true → exec (.harpClkWindow n) s = .next { s with harp := { s.harp with clkWin := some s.nut } }) ∧
      (s.clkOk = false → s.harp.wins = [] → s.harp.run = none → s.harp.queue = [] →
        ∃ t, exec (.harpClkWindow n) s = .next t ∧ t.clkOk = true ∧ t.harp.si = 0 ∧ t.harp.fresh = true ∧ t.harp.marks = [] ∧
          t.mapValid = s.mapValid ∧ (∀ h, t.chState h = s.chState h) ∧
          t = { s with regs := t.regs, setNow := t.setNow, harp := t.harp, freeCtr := t.freeCtr } ∧ s.regsBut t [Reg.harpStat])) ∧
    (s.harpOn = true → s.clkOk = true → s.harp.run = none →
      ∀ c : Instr, c = .harpClkTimeout ∨ (s.clkTick ∧ ∃ n, c = .harpClkWindow n ∧ (n < 80436 ∨ 80468 < n)) →
      ∃ t, exec c s = .next t ∧ t.clkOk = false ∧ t.mapValid = false ∧ t.rBit Reg.harpCause 19 = true ∧
        (∀ h, t.chState h = if s.chState h = 0 then 0 else 4) ∧ t.harp.mainOn = false ∧ t.harp.small = [] ∧
        t.harp.queue = s.harp.queue ∧ t.harp.mem = s.harp.mem ∧ (∃ k, k < 1024 ∧ t.harp.si = (s.harp.si + k) % 2 ^ 48) ∧
        t = { s with regs := t.regs, setNow := t.setNow, harp := t.harp, freeCtr := t.freeCtr }) ∧
    (∀ (upper : Bool) (rs : List SampleRun) (si : BitVec 48), s.harpOn = true → s.clkOk = true →
      (upper = true ∨ s.rBit Reg.harpCtrl 16 = true) → (rs.map SampleRun.n).sum = 2 ^ 20 →
      si.toNat % 2 ^ 20 = 0 → (si.toNat + 2 ^ 48 - s.harp.si) % 2 ^ 48 < 1024 →
      (if upper then s.harp.statU else s.harp.statL) ≠ some si.toNat →
      let a := if upper then Reg.harpBstatu else Reg.harpBstatl
      let ends := fun (c : BitVec 4) => c.toInt == -8 || c.toInt == 7
      let clipped := ((rs.filter fun r => ends r.i || ends r.q).map SampleRun.n).sum
      let power := (rs.map fun r => r.n * ((2 * r.i.toInt + 1) ^ 2 + (2 * r.q.toInt + 1) ^ 2).toNat).sum
      ∃ (t : State) (m : Nat), exec (.bandStatWindow upper rs si) s = .next t ∧ t.rFld a 10 10 = min 1023 (clipped / 1024) ∧
        t.rFld a 0 10 = m ∧ m * m * 2048 ≤ power ∧ power < (m + 1) * (m + 1) * 2048 ∧
        t = { s with regs := t.regs, setNow := t.setNow, harp := t.harp } ∧ s.regsBut t [a]) ∧
    (s.harpOn = true → s.clkOk = true → s.isVoid 48 = false → ∃ t, exec .harpMarker s = .next t ∧
      t.harp = { s.harp with si := if s.harp.fresh then s.harp.si else (s.harp.si + 1024) % 2 ^ 48, fresh := false,
                             markN := s.harp.markN + 1, marks := ((s.nut - Config.markerDelay) :: s.harp.marks).take 65536 } ∧
      t = { s with harp := t.harp }) ∧
    ((s.harp.marks.length ≠ 65536 ∨ s.harp.markN < 4096) → exec .mapFit s = .next s) ∧
    (∀ (n : Nut) (ns : List Nut), s.harpOn = true → s.clkOk = true → 4096 ≤ s.harp.markN → s.harp.marks = n :: ns →
      s.harp.marks.length = 65536 → s.harp.settled →
      let m := fitLine 65536 (fitSums n 33554432 s.harp.marks ⟨0, 0, 0, 0, 0⟩)
      ∃ t, exec .mapFit s = .next t ∧ t.regN Reg.harpMapSi 3 = (s.harp.si + 2 ^ 48 - 33554432) % 2 ^ 48 ∧
        t.reg80 Reg.harpMapNut = n + BitVec.ofInt 80 ((2 * m.a + m.den) / (2 * m.den)) ∧
        t.reg60 Reg.harpMapPer = BitVec.ofInt 60 (roundHaz (m.b * 4294967296) m.den) ∧
        t.rFld Reg.harpMapRes 12 8 = (s.rFld Reg.harpMapRes 12 8 + 1) % 256 ∧ t.rFld Reg.harpMapRes 0 12 = min 4095 m.rmsPs ∧
        t.mapValid = (m.perOk && m.resOk) ∧ (t.mapValid ≠ s.mapValid → t.rBit Reg.harpCause 18 = true) ∧
        t.harp = { s.harp with markN := 0 } ∧ t = { s with regs := t.regs, setNow := t.setNow, harp := t.harp }) ∧
    (∀ off : BitVec 10, s.hostReads Reg.harpSi = true → ∃ t, exec (.harpSiRead off) s = .next t ∧
      let si := (s.harp.si + if s.clkOk then off.toNat else 0) % 2 ^ 48
      t.regN Reg.harpSi 3 = si ∧ t.shadows Reg.harpSi 3 si ∧
      t = { s with regs := t.regs, setNow := t.setNow, rdShadow := t.rdShadow } ∧ s.regsBut t (wordsAt Reg.harpSi 3)) ∧
    (∀ v : Word, s.hostOpen Reg.harpCtrl = true →
      ((s.rBit Reg.harpCtrl 19 = false ∨ bitOf v 19 = true) → s.harp.sreqDue = false → ∃ t, exec (.harpCtrlWrite v) s = .next t ∧
        t.reg Reg.harpCtrl = v &&& 0xF0000 ∧ s.onlyRegs t [Reg.harpCtrl]) ∧
      (s.rBit Reg.harpCtrl 19 = true → bitOf v 19 = false → ∃ t, exec (.harpCtrlWrite v) s = .next t ∧ t.clkOk = false ∧
        t.mapValid = false ∧ (∀ h, t.chState h = 0) ∧ t.harp = { Harp.cold with mem := s.harp.mem, sreqDue := s.harp.sreqDue }))

/-- R228: the cells of a pass, numbered from `first`, detect: the largest S is THR / 16 times μ, the mean of the cells outside the 3 × 3
around the first cell that has it. -/
def Sys2Proof.Machine.detects (thr p : Nat) (wrap : Bool) (first : Nat) (ss : List Nat) : Prop :=
  let (j, sMax) := bestCell ss
  let mu := noiseFloor p wrap first (first + j) ss
  thr * mu.1 ≤ sMax * 16 * mu.2

/-- R226 to R232, R240, R248, R476: searches of a harp that runs. A commit is refused with CFG_ERR and SQ_FULL by R232, and else takes the
next sequence number and joins the queue; with the harp off it waits for power-up. ABORT ends the running search, FLUSH empties the queue.
A pass that detects waits for a verification of the cells around its peak with its μ; one that does not lets the next pass run from the
sample behind it, and the last writes NOT_FOUND. A cell confirmed by two dwells starts a channel in PULLIN at its Doppler and at the first
chip 0 from the pass's end on, with its result record. A LOST channel with AUTO_REACQ asks for a window each second. -/
def Sys2Proof.Machine.HarpSearchesRule : Prop :=
  ∀ s : State,
    let room := (s.rFld Reg.harpSresWr 0 16 + 65536 - s.rFld Reg.harpSresRd 0 16) % 65536 < 64
    let rec_ := fun (t : State) (k : Nat) => t.harpWord (8 * (s.rFld Reg.harpSresWr 0 16 % 64) + k)
    let next := (s.harp.passSi + 61380 * s.harp.passMs) % 2 ^ 48
    (∀ v : Word, s.hostOpen (Reg.harpSreq + 16) = true → s.harpOn = false → ∃ t, exec (.searchCommit v) s = .next t ∧
      t.harp = { s.harp with sreqDue := true } ∧ t = { s with regs := t.regs, setNow := t.setNow, harp := t.harp, wrShadow := t.wrShadow } ∧
      s.regsBut t (wordsAt Reg.harpSreq 5)) ∧
    (∀ v : Word, s.hostOpen (Reg.harpSreq + 16) = true → s.harpOn = true →
      let n := s.commitValue Reg.harpSreq 5 v
      let q := s.searchOf n
      let bad := 16 ≤ s.harp.queue.length ∨ prnOk q.sig q.prn = false ∨ 95 < n / 2 ^ 80 % 128 ∨ (q.window = true ∧ q.codew = 0) ∨
        codeSteps q.sig ≤ q.codec ∨ (s.rBit Reg.harpCtrl 16 = false ∧ (2 ≤ q.sig ∨ q.aidlb = true))
      (bad → ∃ t, exec (.searchCommit v) s = .next t ∧ t.rBit Reg.harpStat 16 = true ∧ t.rBit Reg.harpCause 16 = true ∧ t.harp = s.harp ∧
        t = { s with regs := t.regs, setNow := t.setNow, wrShadow := t.wrShadow } ∧ s.regsBut t [Reg.harpStat, Reg.harpCause]) ∧
      (¬ bad → s.harp.mainOn = true → ∃ t, exec (.searchCommit v) s = .next t ∧
        t.rFld Reg.harpSqSeq 0 16 = (s.rFld Reg.harpSqSeq 0 16 + 1) % 65536 ∧
        t.harp = { s.harp with queue := s.harp.queue ++ [{ q with seq := (s.rFld Reg.harpSqSeq 0 16 + 1) % 65536 }] } ∧
        t = { s with regs := t.regs, setNow := t.setNow, harp := t.harp, wrShadow := t.wrShadow } ∧
        s.regsBut t (Reg.harpSqSeq :: wordsAt Reg.harpSreq 5)) ∧
      (¬ bad → s.mayPass = true → s.harp.mainOn = false → s.harp.small = [] → s.harp.wins = [] → s.harp.run = none → s.harp.queue = [] →
        ∃ t, exec (.searchCommit v) s = .next t ∧ t.harp.mainOn = true ∧ t.harp.queue = [] ∧ t.harp.passMs = q.n * cohMs q.sig ∧
          (∃ k, k < 1024 ∧ t.harp.passSi = (s.harp.si + k) % 2 ^ 48) ∧
          t.harp.run = some { req := { q with seq := (s.rFld Reg.harpSqSeq 0 16 + 1) % 65536 }, pass := 0, verify := false, done := 0 })) ∧
    (s.hostOpen Reg.harpSqCmd = true →
      (∃ t, exec .searchFlush s = .next t ∧ t.harp = { s.harp with queue := [] } ∧ t = { s with harp := t.harp }) ∧
      (∀ r, s.harp.run = some r → s.harp.queue = [] → s.harp.wins = [] → room → ∃ t w, exec .searchAbort s = .next t ∧
          t.harp.run = none ∧ t.harp.mainOn = false ∧ t.harp.small = s.harp.small ∧
          t.rFld Reg.harpSresWr 0 16 = (s.rFld Reg.harpSresWr 0 16 + 1) % 65536 ∧ rec_ t 7 = some w ∧ fld w 8 2 = 2)) ∧
    ((s.harp.run = none ∨ s.passDone = false) → ∀ ss, exec (.strumPassEnd ss) s = .next s) ∧
    (∀ (x : SearchRun) (ss : List Nat), s.harp.run = some x → s.harp.mainOn = true → s.mayPass = true → s.passDone = true →
      ss.length = min 8192 (x.req.cells - 8192 * x.pass) → s.hears x.req.sig = true →
      let first := 8192 * x.pass
      let cell := first + (bestCell ss).1
      let mu := noiseFloor x.req.codes (!x.req.window) first cell ss
      let found := detects x.req.thr x.req.codes (!x.req.window) first ss
      mu.2 ≠ 0 →
      (found → ∃ t w, exec (.strumPassEnd ss) s = .next t ∧ t.harp.run = some { x with verify := true, done := x.done + 1 } ∧
        t.harp.mainOn = false ∧ (w ∈ t.harp.small ∨ w ∈ t.harp.wins) ∧ w.who = .search x.req.seq ∧
        w.peak = some (x.req.cell s.harp.passSi cell) ∧ w.mu = mu ∧ w.thr = x.req.thr ∧ w.n = x.req.n ∧ w.votes = [] ∧
        t = { s with harp := t.harp }) ∧
      (¬ found → x.pass + 1 < x.req.passes → s.harp.small = [] → s.harp.wins = [] → ∃ t, exec (.strumPassEnd ss) s = .next t ∧
        t.harp = { s.harp with run := some { x with pass := x.pass + 1, verify := false, done := x.done + 1 }, mainOn := true,
                               passSi := next, passMs := x.req.n * cohMs x.req.sig } ∧ t = { s with harp := t.harp }) ∧
      (¬ found → x.req.passes ≤ x.pass + 1 → x.req.reps = 0 → s.harp.queue = [] → room →
        x.req.sig < 4 → x.req.prn < 256 → x.req.seq < 65536 →
        ∃ t w, exec (.strumPassEnd ss) s = .next t ∧ t.harp.run = none ∧ t.rBit Reg.harpCause 17 = true ∧
          t.rFld Reg.harpSresWr 0 16 = (s.rFld Reg.harpSresWr 0 16 + 1) % 65536 ∧
          rec_ t 7 = some w ∧ fld w 18 2 = x.req.sig ∧ fld w 10 8 = x.req.prn ∧
          fld w 8 2 = 1 ∧ bitOf w 7 = false ∧ rec_ t 3 = some (BitVec.ofNat 20 x.req.seq))) ∧
    ((s.harp.small = [] ∨ s.passDone = false) → ∀ ws, exec (.smallPassEnd ws) s = .next s) ∧
    (∀ (x : SearchRun) (w : Win) (pk : Peak) (ss : List Nat), s.mayPass = true → s.passDone = true → s.harp.small = [w] →
      s.harp.run = some x → x.verify = true → w.who = .search x.req.seq → w.peak = some pk → ss.length = 9 → s.hears w.sig = true →
      let at_ := w.cell s.harp.passSi (bestCell ss).1
      let vote := decide (w.thr * w.mu.1 ≤ (bestCell ss).2 * 16 * w.mu.2)
      (w.votes = [] → s.harp.wins = [] → s.harp.mainOn = false → ∃ t, exec (.smallPassEnd [ss]) s = .next t ∧
        t.harp = { s.harp with small := [{ w with votes := [vote] }], passSi := next, passMs := w.n * cohMs w.sig } ∧
        t = { s with harp := t.harp }) ∧
      (∀ h : ChanId, w.votes = [true] → vote = true → x.req.auto = true → s.idleChan = some h → room → x.req.sig < 4 → x.req.prn < 256 →
        ∃ t u, exec (.smallPassEnd [ss]) s = .next t ∧ t.chState h = 1 ∧ t.chSig h = x.req.sig ∧ t.chPrn h = x.req.prn ∧
          t.rBit (Reg.harpChCfg h) 7 = false ∧ (t.chan h).dopp = at_.dopp ∧ (t.chan h).pos = edgeAfter x.req.sig at_ (next * 2 ^ 32) ∧
          t.rFld Reg.harpSresWr 0 16 = (s.rFld Reg.harpSresWr 0 16 + 1) % 65536 ∧
          rec_ t 7 = some u ∧ fld u 18 2 = x.req.sig ∧ fld u 10 8 = x.req.prn ∧ fld u 8 2 = 0 ∧ fld u 0 7 = h.val ∧
          rec_ t 6 = some (BitVec.ofNat 20 (phaseAt w.sig at_.pos s.harp.passSi)) ∧
          (∀ i, i < 3 → rec_ t i = some (BitVec.ofNat 20 (s.harp.passSi >>> (20 * i)))) ∧
          ∀ k, k ≠ h → t.chState k = s.chState k)) ∧
    (∀ h : ChanId, (s.chState h ≠ 4 ∨ s.rBit (Reg.harpChCfg h) 9 = false ∨ s.mapValid = false) → exec (.reacqQueue h) s = .next s) ∧
    (∀ h : ChanId, s.chState h = 4 → s.rBit (Reg.harpChCfg h) 9 = true → s.mayPass = true → s.mapValid = true →
      s.msPassed (s.chan h).lastReq 1000 = true → s.reacqWaits h = false → ∃ t w, exec (.reacqQueue h) s = .next t ∧
        (w ∈ t.harp.small ∨ w ∈ t.harp.wins) ∧ w.who = .reacq h ∧ w.sig = s.chSig h ∧ w.prn = s.chPrn h ∧
        w.thr = s.rFld (Reg.harpSigThr (s.chSig h)) 4 8 ∧ w.n = s.rFld (Reg.harpSigSpc2 (s.chSig h)) 0 4 ∧ w.peak = none ∧
        (t.chan h).lastReq = s.harp.si * 2 ^ 32 ∧ t = { s with harp := t.harp, freeCtr := t.freeCtr })

/-- From `s` to `t` channel h enters state `st`: its bit in HARP_CH_CAUSE is set, and no other channel changes (R235). -/
def Sys2Proof.Machine.State.chMoves (s t : State) (h : ChanId) (st : Nat) : Prop :=
  t.chState h = st ∧ (s.chState h ≠ st → t.rBit (Reg.harpChCause (h.val / 20)) (h.val % 20) = true) ∧
    (∀ k, k ≠ h → t.chState k = s.chState k ∧ t.chan k = s.chan k) ∧
    t = { s with regs := t.regs, setNow := t.setNow, harp := t.harp, freeCtr := t.freeCtr }

/-- R233 to R243, R256, R257: tracking. A dump whose samples have come shows its loop's Doppler, the C/N0 of the powers of the last second
and PLL_LOCK, and counts its milliseconds; twenty in a row that meet the condition advance PULLIN to TRACK, where ADR restarts, and found
sync TRACK to SYNC, unless a timer is due on it. Each timer, once its milliseconds lie between the sample at which it started and the
channel's last dump, takes the channel where R235 says, LOST before PULLIN, and before that does nothing. STOP returns it to IDLE and
clears its partner's LINKED. After 1 s of dumps in SYNC the multipath estimator writes its fit. -/
def Sys2Proof.Machine.HarpTrackingRule : Prop :=
  ∀ (s : State) (h : ChanId),
    let c := s.chan h
    let sig := s.chSig h
    let st := s.chState h
    (∀ d, (s.harpOn = false ∨ s.clkOk = false ∨ st = 0 ∨ st = 4 ∨ s.dumpReady h = false) → exec (.channelDump h d) s = .next s) ∧
    (∀ d : Dump, s.mayPass = true → s.dumpReady h = true → (s.pullDue h = true ∨ s.lolDue h = true) →
      ∃ t, exec (.channelDump h d) s = .next t ∧ s.chMoves t h 4) ∧
    (∀ d : Dump, s.mayPass = true → s.dumpReady h = true → 1 ≤ st → st ≤ 3 → s.pullDue h = false → s.lolDue h = false →
      s.pllDue h = false → s.hears sig = true → mag2 ((trackingOf d sig).get 3) ≠ 0 →
      let y := (trackingOf d sig).get 3
      let ms := s.dumpMs h
      let lock := pliAtLeast (((y.1 * y.1 - y.2 * y.2, mag2 y) :: c.plis).take 20) (s.rFld (Reg.harpSigSpc2 sig) 4 8)
      let good := if fllSmall sig (crossDot ((trackingOf c.corr sig).get 3) y) && lock then c.good + 1 else 0
      let v := c.syncStep sig (s.chPrn h) (decide (0 ≤ y.1))
      let u := s.dumpIn h d
      let due := u.pullDue h || u.lolDue h || u.pllDue h
      ∃ t, exec (.channelDump h d) s = .next t ∧ s.chMoves t h (t.chState h) ∧
        t.reg (Reg.harpChDopp h) = BitVec.ofInt 20 (roundHaz (t.chan h).dopp 4096) ∧ t.rBit (Reg.harpChStat h) 16 = lock ∧
        t.rFld (Reg.harpChStat h) 4 10 = momentCn0 ms ((mag2 y :: (if c.powMs = ms then c.powers else [])).take (1000 / ms)) ∧
        (t.chan h).own = (c.own + s.dumpGap h + ms) % 2 ^ 30 ∧
        (sig ≠ 1 → st ≠ 1 → (t.chan h).adr = c.adr + c.dopp * sampleDiff (t.chan h).pos c.pos) ∧
        (st = 1 → (20 ≤ good ∧ due = false → t.chState h = 2 ∧ (t.chan h).lockAt = s.nut ∧ (t.chan h).dumps = 0 ∧ (t.chan h).adr = 0) ∧
          (good < 20 ∨ due = true → t.chState h = 1 ∧ (t.chan h).good = good)) ∧
        (st = 2 → t.chState h = if v.synced sig && !due then 3 else 2) ∧ (st = 3 → t.chState h = 3)) ∧
    (st = 1 → (msBetween c.since c.pos (s.rFld Reg.harpPullTmo 0 16) = false → exec (.pullinTimeout h) s = .next s) ∧
      (msBetween c.since c.pos (s.rFld Reg.harpPullTmo 0 16) = true → ∃ t, exec (.pullinTimeout h) s = .next t ∧ s.chMoves t h 4)) ∧
    (∀ n, c.pliLow = some n → (st = 2 ∨ st = 3) →
      (msBetween n c.pos (s.rFld Reg.harpPllTmo 0 16) = false → exec (.pllTimeout h) s = .next s) ∧
      (s.lolDue h = true → exec (.pllTimeout h) s = .next s) ∧
      (msBetween n c.pos (s.rFld Reg.harpPllTmo 0 16) = true → s.lolDue h = false → ∃ t, exec (.pllTimeout h) s = .next t ∧
        s.chMoves t h 1 ∧ t.rBit (Reg.harpChStat h) 15 = true ∧ (t.chan h).slips = (c.slips + 1) % 16 ∧
        (st = 3 → (t.chan h).totSrc = 0 ∧ t.rBit (Reg.harpChMp h) 19 = false))) ∧
    (c.pliLow = none → exec (.pllTimeout h) s = .next s) ∧
    (∀ n, c.cn0Low = some n → 1 ≤ st → st ≤ 3 →
      (msBetween n c.pos (s.rFld Reg.harpLolTmo 0 16) = false → exec (.lolTimeout h) s = .next s) ∧
      (msBetween n c.pos (s.rFld Reg.harpLolTmo 0 16) = true → ∃ t, exec (.lolTimeout h) s = .next t ∧ s.chMoves t h 4)) ∧
    (c.cn0Low = none → exec (.lolTimeout h) s = .next s) ∧
    (st = 4 → (s.msPassed c.since (s.rFld Reg.harpReacqTmo 0 12 * 1000) = false → exec (.reacqTimeout h) s = .next s) ∧
      (s.msPassed c.since (s.rFld Reg.harpReacqTmo 0 12 * 1000) = true → ∃ t, exec (.reacqTimeout h) s = .next t ∧
        s.chMoves t h 0)) ∧
    (s.hostOpen (Reg.harpChCmd h) = true → (st = 0 → exec (.channelStop h) s = .next s) ∧
      (st ≠ 0 → ∃ t, exec (.channelStop h) s = .next t ∧ s.chMoves t h 0 ∧
        ∀ q, s.partner h = some q → t.rBit (Reg.harpChCfg q) 7 = false)) ∧
    (∀ f, (st ≠ 3 ∨ c.mpMs < 1000) → exec (.mpEstimate h f) s = .next s) ∧
    (∀ f : MpFit, s.mayPass = true → st = 3 → 1000 ≤ c.mpMs → ∃ t, exec (.mpEstimate h f) s = .next t ∧
      t = { s with regs := t.regs, setNow := t.setNow, harp := t.harp, freeCtr := t.freeCtr } ∧
      s.regsBut t [Reg.harpChMp h, Reg.harpChMp1 h] ∧ (t.chan h).mpMs = 0 ∧ (∀ k, k ≠ h → t.chan k = s.chan k) ∧
      let fit := bestPath (Config.corrShape sig) (s.corrOffsets h) c.mpAcc (s.rFld (Reg.harpSigSpc sig) 4 8)
      (fit = none → t.rBit (Reg.harpChMp h) 19 = false) ∧
      ∀ p, fit = some p →
        t.rBit (Reg.harpChMp h) 19 = (decide (0 < p.a0.1) && decide (s.rFld Reg.harpMpCn 0 10 ≤ s.rFld (Reg.harpChStat h) 4 10)) ∧
        t.rBit (Reg.harpChMp h) 18 = decide (p.tau1 ≠ 0) ∧ t.rFld (Reg.harpChMp h) 8 10 = (BitVec.ofInt 10 p.tau0).toNat ∧
        t.rFld (Reg.harpChMp h) 0 8 = (if p.tau1 = 0 then 0 else ampSteps p.a0 p.a1 f.alphaUp) ∧
        (p.tau1 ≠ 0 → t.rFld (Reg.harpChMp1 h) 10 10 = p.tau1.toNat ∧ t.rFld (Reg.harpChMp1 h) 2 8 =
          argSteps (p.a1.1 * p.a0.1 + p.a1.2 * p.a0.2, p.a1.2 * p.a0.1 - p.a1.1 * p.a0.2) f.thetaUp))

/-- R250 to R254, R257, R260 to R263: records. A HARP_EPOCH that fired is placed at the end of its tick: N_e and the channels in TRACK and
SYNC are latched, unless the last was less than 20 ms before, which is counted. The latched epoch is written to its slot with its header, MEAS_WR advances and
MEAS is set; with no epoch due nothing happens. A channel in SYNC whose signal is enabled decodes an item; the one that frames delivers
it to the navigation ring, and a checked time of week sets its count; any other channel delivers nothing. No harp event is asked for.
Where the spec leaves a reading open it is the model's: notes/assumptions, entries 120, 121, 125, 184, 185, 197. -/
def Obligations.HarpRecords : Prop :=
  ∀ s : State,
    (s.harp.epochDue = false → s.harpTick = s) ∧
    (s.harp.epochDue = true → s.harpTick.harp.epochDue = false ∧
      (s.harpOn = false → s.harpTick.harp = { s.harp with epochDue := false }) ∧
      (∀ n, s.harpOn = true → s.harp.lastEpoch = some n → (s.nut - n).toNat < 8000000 * 163840 →
        s.harpTick.reg Reg.harpEpochFast = satAdd (s.reg Reg.harpEpochFast) 1 ∧ s.harpTick.rBit Reg.harpMcause 17 = true ∧
        s.harpTick.harp = { s.harp with epochDue := false }) ∧
      ((s.harpOn = true ∧ ∀ n, s.harp.lastEpoch = some n → 8000000 * 163840 ≤ (s.nut - n).toNat) → ∃ e,
        s.harpTick.harp.epoch = some e ∧ s.harpTick.harp.lastEpoch = some s.nut ∧ e.ne = s.nut ∧ e.valid = s.mapValid ∧
        (s.mapValid = false → e.chans = []) ∧
        (∀ h : ChanId, s.mapValid = true → (h ∈ e.chans.map Latched.h ↔ 2 ≤ s.chState h ∧ s.chState h ≤ 3)))) ∧
    (s.harp.epoch = none → ∀ ws, exec (.measRecordWrite ws) s = .next s) ∧
    (∀ (e : Epoch) (ws : List Word), s.harp.epoch = some e → e.chans.length ≤ 96 → e.ants.length = 4 →
      s.rFld Reg.harpEvt 0 4 = 0 →
      let b := 4096 + 2048 * (s.rFld Reg.harpMeasWr 0 16 % 32)
      ∃ t w1, exec (.measRecordWrite ws) s = .next t ∧ t.harp.epoch = none ∧
        t.rFld Reg.harpMeasWr 0 16 = (s.rFld Reg.harpMeasWr 0 16 + 1) % 65536 ∧ t.rBit Reg.harpMcause 19 = true ∧
        t.harpWord b = some (BitVec.ofNat 20 ((s.rFld Reg.harpMeasWr 0 16 + 1) % 65536)) ∧
        t.harpWord (b + 1) = some w1 ∧ bitOf w1 19 = e.valid ∧ fld w1 0 7 = e.chans.length ∧
        (∀ i, i < 4 → t.harpWord (b + 2 + i) = some (BitVec.ofNat 20 (e.se.toNat >>> (20 * i)))) ∧
        (∀ i, i < 4 → t.harpWord (b + 6 + i) = some (BitVec.ofNat 20 (e.ne.toNat >>> (20 * i)))) ∧
        (∀ i (l : Latched), e.chans[i]? = some l → ∃ w, t.harpWord (b + 32 + 16 * i + 8) = some w ∧ fld w 10 10 = fld l.cfg 10 10 ∧
          fld w 0 3 = fld l.stat 17 3 ∧ fld w 3 7 = l.h.val ∧
          t.harpWord (b + 32 + 16 * i + 3) = some (BitVec.ofNat 20 (l.adrAt e.se.toNat).toNat)) ∧
        (∀ i w, 16 * e.chans.length + i < 2016 → ws[i]? = some w → t.harpWord (b + 32 + 16 * e.chans.length + i) = some w) ∧
        (∀ w, (w < b ∨ b + 2048 ≤ w) → t.harpWord w = s.harpWord w) ∧
        t = { s with regs := t.regs, setNow := t.setNow, harp := t.harp, freeCtr := t.freeCtr } ∧ s.regsBut t [Reg.harpMeasWr, Reg.harpMcause]) ∧
    (∀ (h : ChanId) (it : NavItem), (s.chState h ≠ 3 ∨ s.rBit Reg.harpNavCtrl (16 + s.chSig h) = false ∨ s.mayPass = false) →
      exec (.navEntry h it) s = .next s) ∧
    (∀ (h : ChanId) (it : NavItem), s.mayPass = true → s.chState h = 3 → s.rBit Reg.harpNavCtrl (16 + s.chSig h) = true →
      let sig := s.chSig h
      let d := (s.chan h).decodeNav sig it
      let r := (s.chan h).takeNav sig it d
      (r.2 = false → ∃ t, exec (.navEntry h it) s = .next t ∧ t.chan h = r.1 ∧ (∀ k, k ≠ h → t.chan k = s.chan k) ∧
        t = { s with harp := { s.harp with chans := t.harp.chans } }) ∧
      (r.2 = true → s.rFld Reg.harpEvt 4 4 = 0 →
        let b := 69632 + 32 * (s.rFld Reg.harpNavWr 0 16 % 2048)
        ∃ t w16 w17, exec (.navEntry h it) s = .next t ∧ t.rFld Reg.harpNavWr 0 16 = (s.rFld Reg.harpNavWr 0 16 + 1) % 65536 ∧
          t.rBit Reg.harpMcause 18 = true ∧
          (∀ i, i < 15 → t.harpWord (b + i) = some (BitVec.ofNat 20 ((bitsNat d.payload * 2 ^ (300 - d.payload.length)) >>> (20 * i)))) ∧
          t.harpWord (b + 16) = some w16 ∧ fld w16 18 2 = navKind sig ∧ fld w16 16 2 = sig ∧ fld w16 8 8 = s.chPrn h ∧
          fld w16 0 7 = h.val ∧ t.harpWord (b + 17) = some w17 ∧ bitOf w17 19 = d.chkOk ∧ bitOf w17 18 = d.inv ∧
          bitOf w17 17 = (decide (sig = 1) && it.unpaired) ∧ fld w17 12 4 = (if sig = 0 then r.1.word else 0) ∧ fld w17 0 12 = min 4095 d.err ∧
          (∀ i, i < 4 → t.harpWord (b + 18 + i) = some (BitVec.ofNat 20 ((s.nutOfSample it.si.toNat).toNat >>> (20 * i)))) ∧
          (∀ i, i < 2 → t.harpWord (b + 22 + i) = some (BitVec.ofNat 20 (it.symcnt.toNat >>> (20 * i)))) ∧
          t.harpWord (b + 31) = some (BitVec.ofNat 20 ((s.rFld Reg.harpNavWr 0 16 + 1) % 65536)) ∧
          (∀ w, (w < b ∨ b + 32 ≤ w) → t.harpWord w = s.harpWord w) ∧
          (∀ n, r.1.towNow sig it d = some n → (s.chan h).totSrc ≠ 1 → s.rBit Reg.harpNavCtrl 15 = true →
            (t.chan h).totSrc = 1 ∧ (t.chan h).tot = n) ∧
          (∀ k, k ≠ h → t.chan k = s.chan k) ∧ t = { s with regs := t.regs, setNow := t.setNow, harp := t.harp } ∧
          s.regsBut t [Reg.harpNavWr, Reg.harpMcause]))


/-- R226 to R241, R248: searches, and the tracking of a channel.
Where the spec leaves a reading open it is the model's: notes/assumptions, entries 110, 111, 113, 119, 182, 189, 191, 192, 193, 195, 198. -/
def Obligations.HarpChannels : Prop := Sys2Proof.Machine.HarpSearchesRule ∧ Sys2Proof.Machine.HarpTrackingRule

/-! ### Linkan-20: sequencing, waits and stalls -/

/-- A context issues its next instruction with these fields (R301, R313, R329, R330): it is in RUN, its course runs, its string is not
fenced, it is the next of its string in turn, CRS_RUNAWAY is not reached, the program word is sound and its OP assigned, and COND is
true. -/
def Sys2Proof.Machine.State.ready (s : State) (x : CtxId) (f : Fields) : Prop :=
  s.canIssue x = true ∧ (s.ctx x).issued < (s.reg (Reg.crsRunaway (courseOf x))).toNat ∧ s.badFetch x = false ∧ s.badOp x = false ∧
  condTrue f.cond (s.ctx x).fl = true

/-- The context after an instruction that goes on to the next word: its PC, one more instruction issued, the flags `g` where SF = 1,
and STALL until the result returns where it `waits` (R303, R312, R314). -/
def Sys2Proof.Machine.Ctx.after (c : Ctx) (f : Fields) (waits : Bool) (g : Flags) : Ctx :=
  { c with pc := c.pc + 1, issued := c.issued + 1, fl := if f.sf then g else c.fl,
           mode := if waits then .stall else c.mode, stall := if waits then .result else c.stall }

/-- From `s` to `t` context x alone changes, to `c`, beside the performance counters and the marks of its string's last issue. -/
def Sys2Proof.Machine.State.ranOne (s t : State) (x : CtxId) (c : Ctx) : Prop :=
  t.ctx x = c ∧ (∀ y, y ≠ x → t.ctx y = s.ctx y) ∧
  t = { s with ctxs := t.ctxs, counters := t.counters, quiet := t.quiet, lastPc := t.lastPc, lastIss := t.lastIss }

/-- The same where the instruction also took `k` free values. -/
def Sys2Proof.Machine.State.ranFree (s t : State) (x : CtxId) (c : Ctx) : Prop :=
  t.ctx x = c ∧ (∀ y, y ≠ x → t.ctx y = s.ctx y) ∧
  t = { s with ctxs := t.ctxs, counters := t.counters, quiet := t.quiet, lastPc := t.lastPc, lastIss := t.lastIss, freeCtr := t.freeCtr }

/-- No event of a mask stands for a context: no pending raise, no DRAIN, no completion (R318, R319). -/
def Sys2Proof.Machine.State.noEvent (s : State) (x : CtxId) (m : BitVec 14) : Prop :=
  (∀ e, e < 11 → m.getLsbD e = true → s.pendOf (courseOf x) e = 0) ∧
  (m.getLsbD 11 = true → s.crsState (courseOf x) ≠ CS.draining) ∧
  (∀ d ∈ (s.ctx x).done, (d.crypto = true → m.getLsbD 12 = false) ∧ (d.crypto = false → m.getLsbD 13 = false))

/-- A context woken with a record from register `r` on, and E or T (R321, R323, R330). -/
def Sys2Proof.Machine.Ctx.woken (c : Ctx) (r : BitVec 6) (rec : List Word) (byEvent : Bool) : Ctx :=
  { c.wr r.toNat rec with mode := .run, waiting := none, issued := 0, fl := { c.fl with e := byEvent, t := !byEvent } }

/-- R312, R313, R314, R340, R343: NOP, BR, CALL and RET. A branch goes to IMM[14:0], or with IMM[19] to the sum with G(SRCA) modulo 2¹⁵; CALL
pushes the PC of the next instruction, RET pops it. With a false COND each takes its slot and goes on. -/
def Sys2Proof.Machine.BranchesRule : Prop :=
  ∀ (s : State) (x : CtxId) (f : Fields), f.w = 1 →
    let c := s.ctx x
    let to_ : BitVec 15 :=
      if bitOf f.imm 19 then BitVec.ofNat 15 ((c.r f.srca.toNat).toNat + f.imm.toNat) else BitVec.ofNat 15 f.imm.toNat
    (s.ready x f →
      (∃ t, exec (.nop x f) s = .next t ∧ s.ranOne t x (c.after f false c.fl)) ∧
      (∃ t, exec (.br x f) s = .next t ∧ s.ranOne t x { c with pc := to_, issued := c.issued + 1 }) ∧
      (c.stack.length < 8 → ∃ t, exec (.call x f) s = .next t ∧
        s.ranOne t x { c with pc := to_, issued := c.issued + 1, stack := (c.pc + 1) :: c.stack }) ∧
      (∀ p ps, c.stack = p :: ps → ∃ t, exec (.ret x f) s = .next t ∧
        s.ranOne t x { c with pc := p, issued := c.issued + 1, stack := ps })) ∧
    (s.canIssue x = true → c.issued < (s.reg (Reg.crsRunaway (courseOf x))).toNat → s.badFetch x = false →
      condTrue f.cond c.fl = false → ∀ i ∈ [Instr.nop x f, .br x f, .call x f, .ret x f, .yield x f, .halt x f, .wait x f],
        ∃ t, exec i s = .next t ∧ s.ranOne t x { c with pc := c.pc + 1, issued := c.issued + 1 })

/-- R306, R325, R367: YIELD leaves the context IDLE and HALT leaves it HALTED with the cause HALT. Either ends the work item: what was due to it
is discarded, its keys E0 and E1 are cleared, and a receive slot it still owns goes back to the pool and is counted as an orphan. -/
def Sys2Proof.Machine.ItemEndsRule : Prop :=
  ∀ (s : State) (x : CtxId) (f : Fields), s.ready x f → f.w = 1 →
    let c := s.ctx x
    let k := courseOf x
    let over_ := fun (m : CtxMode) =>
      { c with mode := m, pc := c.pc + 1, issued := c.issued + 1, waiting := none, done := [],
               item := c.item + 1, e0 := none, e1 := none, slot := none }
    (c.slot = none → ∃ t, exec (.yield x f) s = .next t ∧ s.ranOne t x (over_ .idle)) ∧
    (c.slot = none → ∃ t, exec (.halt x f) s = .next t ∧ t.ctx x = over_ .halted ∧ (∀ y, y ≠ x → t.ctx y = s.ctx y) ∧
      t.rBit (Reg.crsCause k) 15 = true ∧ s.regsBut t [Reg.crsCause k]) ∧
    (∀ j, c.slot = some j → ∃ t, exec (.yield x f) s = .next t ∧ t.ctx x = over_ .idle ∧
      (t.course k).used = (s.course k).used.erase j ∧ t.reg (Reg.crsOrphan k) = satAdd (s.reg (Reg.crsOrphan k)) 1 ∧
      s.regsBut t [Reg.crsOrphan k])

/-- R318, R319, R321, R322, R323, R324: WAIT. With no named event and no passed deadline the context waits; a pending raise of the lowest named
event wakes it at once with its record, and a deadline already passed ends it with T. EVENT_WAKE wakes a waiting context by the
first of its completions that it names, with L for a late send; WAIT_TIMEOUT ends a wait on its expiry tick. -/
def Sys2Proof.Machine.WaitsRule : Prop :=
  (∀ (s : State) (x : CtxId) (f : Fields) (d : Option Nut), s.ready x f → f.w = 1 → fld f.imm 14 6 = 0 → f.dst.toNat % 8 = 0 →
    (fld f.imm 0 14 ≠ 0 ∨ f.m 0 = true) → (f.m 0 = true → chordOk f.srca 4 = true) →
    d = (if f.m 0 then some (BitVec.ofNat 80 ((s.ctx x).chord f.srca.toNat 4)) else none) →
    let c := { s.ctx x with pc := (s.ctx x).pc + 1, issued := (s.ctx x).issued + 1 }
    let m : BitVec 14 := BitVec.ofNat 14 (fld f.imm 0 14)
    let k := courseOf x
    (s.noEvent x m → (∀ n, d = some n → s.nut.toNat ≤ tickUp n) → ∃ t, exec (.wait x f) s = .next t ∧
      s.ranOne t x { c with mode := .wait, waiting := some ⟨m, d, f.dst⟩, fl := { c.fl with e := false, t := false } }) ∧
    (∀ e, e < 11 → m.getLsbD e = true → s.pendOf k e ≠ 0 → (∀ i, i < e → m.getLsbD i = true → s.pendOf k i = 0) →
      ∃ t, exec (.wait x f) s = .next t ∧ t.pendOf k e = s.pendOf k e - 1 ∧ s.regsBut t [Reg.crsEvt k e] ∧
        t.ctx x = c.woken f.dst [BitVec.ofNat 20 e, BitVec.ofNat 20 (s.pendOf k e - 1), 0, 0, 0, 0, 0, 0] true) ∧
    (∀ n, s.noEvent x m → d = some n → tickUp n < s.nut.toNat → ∃ t, exec (.wait x f) s = .next t ∧
      s.ranOne t x (c.woken f.dst [0xFFFFF, 0, 0, 0, 0, 0, 0, 0] false))) ∧
  (∀ (s : State) (x : CtxId) (w : Waiting), (s.ctx x).mode = .wait → (s.ctx x).waiting = some w →
    (∀ (d : Done) (ds : List Done), (∀ e, e < 11 → w.mask.getLsbD e = false) → w.mask.getLsbD 11 = false →
      w.mask.getLsbD 12 = false → w.mask.getLsbD 13 = true → w.deadline = none → (s.ctx x).done = d :: ds → d.crypto = false →
      ∃ t, exec (.eventWake x) s = .next t ∧ (t.ctx x).done = ds ∧ (t.ctx x).mode = .run ∧ (t.ctx x).waiting = none ∧
        (t.ctx x).rd w.dst.toNat 8 = d.record ∧ (t.ctx x).fl.e = true ∧ (t.ctx x).fl.t = false ∧
        ((t.ctx x).fl.l = true ↔ d.status = 3) ∧ ∀ y, y ≠ x → t.ctx y = s.ctx y) ∧
    (s.noEvent x w.mask → exec (.eventWake x) s = .next s) ∧
    (∀ n, w.deadline = some n → s.noEvent x w.mask → tickUp n ≤ s.nut.toNat → ∃ t, exec (.waitTimeout x) s = .next t ∧
      s.ranOne t x ((s.ctx x).woken w.dst [0xFFFFF, 0, 0, 0, 0, 0, 0, 0] false)) ∧
    (∀ n, w.deadline = some n → s.nut.toNat < tickUp n → exec (.waitTimeout x) s = .next s)) ∧
  (∀ (s : State) (x : CtxId), (s.ctx x).mode = .stall → (s.ctx x).stall = .result → ∃ t, exec (.stallResultReturn x) s = .next t ∧
    s.ranOne t x { s.ctx x with mode := .run })


/-- R306, R312 to R314, R318, R319, R321 to R325, R340, R343, R367: branches, calls, waits, and the ends of an item.
Where the spec leaves a reading open it is the model's: notes/assumptions, entries 136, 137, 164. -/
def Obligations.SequenceInstructions : Prop := Sys2Proof.Machine.BranchesRule ∧ Sys2Proof.Machine.ItemEndsRule ∧ Sys2Proof.Machine.WaitsRule

/-! ### Linkan-20: chord arithmetic and float60 -/

/-- The low `n` bits of the packet window from bit `o` on are `b`, most significant first: they lie in the window, no job of the context
writes them, none is damaged, and bit j of the window is bit 7 − j mod 8 of its byte (R315, R317, R341, R355, R369). -/
def Sys2Proof.Machine.State.fieldIs (s : State) (x : CtxId) (o n b : Nat) : Prop :=
  let c := courseOf x
  let pw := (s.ctx x).pw.toNat
  let a := pw + o / 8
  let k := (o + n + 7) / 8 - o / 8
  o + n ≤ 16384 ∧ s.loadWaits x a k = false ∧ s.badByte c a k = none ∧ b < 2 ^ n ∧
  (∀ i, i < k → ((s.course c).buf.read? ((a + i) % 1048576)).isSome = true) ∧
  ∀ j y, j < n → (s.course c).buf.read? ((pw + (o + j) / 8) % 1048576) = some y →
    b.testBit (n - 1 - j) = y.getLsbD (7 - (o + j) % 8)

/-- The `w` words of a course's data SRAM from address `a` on, modulo 2¹⁹, are `b`, word 0 at the lowest address, and none is damaged
(R341, R346). -/
def Sys2Proof.Machine.State.dataIs (s : State) (c : CourseId) (a w b : Nat) : Prop :=
  s.badData c a w = none ∧ ∃ ws : List Word, ws.length = w ∧ b = ofWords ws ∧
    ∀ i, i < w → (s.course c).data.read? ((a + i) % 524288) = ws[i]?

/-- Operand B of an instruction on chords of `w` words is `b` (R311, R317, R346): the chord G(SRCB), the immediate sign-extended, a packet
field, or words of the data SRAM. -/
def Sys2Proof.Machine.State.operandB (s : State) (x : CtxId) (f : Fields) (w b : Nat) : Prop :=
  match f.sel with
  | 0 => chordOk f.srcb w = true ∧ b = (s.ctx x).chord f.srcb.toNat w
  | 1 => b = (f.imm.toInt % (2 : Int) ^ (20 * w)).toNat
  | 2 => fieldLen f.imm ≤ 20 * w ∧ s.fieldIs x (fieldOff f.imm) (fieldLen f.imm) b
  | _ => s.dataIs (courseOf x) (((s.ctx x).r f.srcb.toNat).toNat + f.imm.toNat % 2 ^ 19) w b

/-- Z and N of a result of `n` bits (R312). -/
def Sys2Proof.Machine.Flags.result (g : Flags) (n r : Nat) : Flags := { g with z := decide (r = 0), n := decide (2 ^ (n - 1) ≤ r) }

/-- The instruction answers a next state in which context x holds `r` in its chord G(DST) of `w` words, the flags `g` where SF = 1, and nothing
else but its PC and its wait has changed. -/
def Sys2Proof.Machine.State.gives (s : State) (i : Instr) (x : CtxId) (f : Fields) (waits : Bool) (w r : Nat) (g : Flags) : Prop :=
  ∃ t, exec i s = .next t ∧ s.ranOne t x (((s.ctx x).wr f.dst.toNat (toWords w r)).after f waits g)

/-- R303, R312, R313, R317, R341, R346, R347, R348: the chord arithmetic, on every width, every form of B and every operand. Each result goes to
G(DST) modulo 2^(20·WID); with SF = 1 the flags are those of R312 and of the entry. For a shift of SHL by the width or more, C is A's lowest
bit (the model's reading, notes/assumptions/31.md). -/
def Sys2Proof.Machine.ArithmeticRule : Prop :=
  ∀ (s : State) (x : CtxId) (f : Fields) (b : Nat), s.ready x f → 1 ≤ f.w → f.w ≤ 5 → s.operandB x f f.w b →
    let w := f.w
    let n := 20 * f.w
    let g := (s.ctx x).fl
    let a := (s.ctx x).chord f.srca.toNat w
    let sg := fun (v : Nat) => if 2 ^ (n - 1) ≤ v then (v : Int) - (2 : Int) ^ n else (v : Int)
    let k := b % 128
    let addTo := fun (i : Instr) (ci : Nat) =>
      let r := (a + b + ci) % 2 ^ n
      s.gives i x f f.slow w r
        { g.result n r with c := decide (2 ^ n ≤ a + b + ci), v := decide (sg a + sg b + ci ≠ sg r) }
    let subFrom := fun (p q bo : Nat) =>
      let r := (p + 2 ^ (n + 1) - q - bo) % 2 ^ n
      (r, { g.result n r with c := decide (q + bo ≤ p), v := decide (sg p - sg q - bo ≠ sg r) })
    let plain := fun (i : Instr) (r : Nat) => s.gives i x f f.slow w r (g.result n r)
    let flagsOnly := fun (i : Instr) (h : Flags) => ∃ t, exec i s = .next t ∧ s.ranOne t x ((s.ctx x).after f f.slow h)
    (chordOk f.dst w = true → plain (.mov x f) b ∧ s.gives (.neg x f) x f f.slow w (subFrom 0 b 0).1 (subFrom 0 b 0).2) ∧
    (chordOk f.srca w = true → flagsOnly (.cmp x f) (subFrom a b 0).2 ∧ flagsOnly (.tst x f) (g.result n (a &&& b))) ∧
    (chordOk f.srca w = true → chordOk f.dst w = true →
      addTo (.add x f) 0 ∧ addTo (.adc x f) g.c.toNat ∧
      s.gives (.sub x f) x f f.slow w (subFrom a b 0).1 (subFrom a b 0).2 ∧
      s.gives (.sbc x f) x f f.slow w (subFrom a b (!g.c).toNat).1 (subFrom a b (!g.c).toNat).2 ∧
      plain (.and x f) (a &&& b) ∧ plain (.or x f) (a ||| b) ∧ plain (.xor x f) (a ^^^ b) ∧ plain (.bic x f) (a - (a &&& b)) ∧
      s.gives (.shl x f) x f f.slow w (a * 2 ^ k % 2 ^ n) { g.result n (a * 2 ^ k % 2 ^ n) with
        c := if k = 0 then false else if k < n then a.testBit (n - k) else a.testBit 0 } ∧
      s.gives (.shr x f) x f f.slow w (a / 2 ^ k) { g.result n (a / 2 ^ k) with
        c := if k = 0 then false else if k < n then a.testBit (k - 1) else a.testBit (n - 1) } ∧
      s.gives (.sar x f) x f f.slow w (sg a / (2 : Int) ^ k % (2 : Int) ^ n).toNat
        { g.result n (sg a / (2 : Int) ^ k % (2 : Int) ^ n).toNat with
          c := if k = 0 then false else if k < n then a.testBit (k - 1) else a.testBit (n - 1) } ∧
      plain (.rol x f) (a * 2 ^ (k % n) % 2 ^ n + a / 2 ^ (n - k % n)) ∧
      s.gives (.mull x f) x f f.slow w (a * b % 2 ^ n) { g.result n (a * b % 2 ^ n) with c := decide (2 ^ n ≤ a * b), v := false } ∧
      s.gives (.mulh x f) x f f.slow w (a * b / 2 ^ n) { g.result n (a * b / 2 ^ n) with c := false, v := false } ∧
      s.gives (.mulhs x f) x f f.slow w (sg a * sg b / (2 : Int) ^ n % (2 : Int) ^ n).toNat
        { g.result n (sg a * sg b / (2 : Int) ^ n % (2 : Int) ^ n).toNat with c := false, v := false } ∧
      (b ≠ 0 → s.gives (.divu x f) x f f.slow w (a / b) { g.result n (a / b) with v := false } ∧
        s.gives (.remu x f) x f f.slow w (a % b) { g.result n (a % b) with v := false }) ∧
      (b = 0 → s.gives (.divu x f) x f f.slow w (2 ^ n - 1) { g.result n (2 ^ n - 1) with v := true } ∧
        s.gives (.remu x f) x f f.slow w a { g.result n a with v := true }))

/-- R341, R346: SETW, CLZ and STM, which take no operand B. SETW writes one word of its chord; CLZ counts the zero bits above A's highest one; STM
stores the words of A to the data SRAM from its address on, modulo 2¹⁹, and every other word stays. -/
def Sys2Proof.Machine.WordsAndStoresRule : Prop :=
  ∀ (s : State) (x : CtxId) (f : Fields), s.ready x f → 1 ≤ f.w → f.w ≤ 5 →
    let c := s.ctx x
    let k := courseOf x
    let a := c.chord f.srca.toNat f.w
    (chordOk f.dst f.w = true → f.mode.toNat % 8 < f.w → ∃ t, exec (.setw x f) s = .next t ∧
      s.ranOne t x ((c.wr (f.dst.toNat + f.mode.toNat % 8) [f.imm]).after f false c.fl)) ∧
    (chordOk f.srca f.w = true → chordOk f.dst f.w = true → ∀ z, z ≤ 20 * f.w → a < 2 ^ (20 * f.w - z) →
      (z = 20 * f.w ∨ 2 ^ (20 * f.w - z - 1) ≤ a) → s.gives (.clz x f) x f false f.w z (c.fl.result (20 * f.w) z)) ∧
    (chordOk f.srca f.w = true → f.sel = 3 → ∃ t, exec (.stm x f) s = .next t ∧ t.ctx x = c.after f false c.fl ∧
      (∀ i, i < f.w → (t.course k).data.read? (((c.r f.srcb.toNat).toNat + f.imm.toNat % 2 ^ 19 + i) % 524288) =
        some (c.r (f.srca.toNat + i))) ∧
      (∀ d, (∀ i, i < f.w → d ≠ ((c.r f.srcb.toNat).toNat + f.imm.toNat % 2 ^ 19 + i) % 524288) →
        (t.course k).data.read? d = (s.course k).data.read? d) ∧
      (∀ y, y ≠ k → t.course y = s.course y) ∧ (∀ y, y ≠ x → t.ctx y = s.ctx y) ∧ t.regs = s.regs)

/-- A float60 result (R349): a word, a NaN of a NaN operand, or the zero of an exact cancellation, whose open bits are free values. -/
def Sys2Proof.Machine.FRes.holds (r : FRes) (w : W60) : Prop :=
  match r with
  | .val v => w = v
  | .anyNan => f60IsNan w = true
  | .anyZero => f60IsZero w = true

/-- R303, R349, R350, R351: the float60 instructions write the result of their operation, rounded as R349 has it, to the three words of G(DST) (FCVTF:
to WID words), and with SF = 1 the flags of R350; BSEL 1, ILLEGAL but in FSCL, is in ContextFaults. A NaN operand's result is any NaN, an exact cancellation's any zero: free values.
Where the spec leaves a reading open it is the model's: notes/assumptions, entries 38, 141. -/
def Obligations.Floats : Prop :=
  ∀ (s : State) (x : CtxId) (f : Fields), s.ready x f →
    let c := s.ctx x
    let a : W60 := BitVec.ofNat 60 (c.chord f.srca.toNat 3)
    let fl := fun (w : W60) (v : Bool) => { c.fl with z := f60IsZero w, n := w.getLsbD 59, v := v }
    let puts := fun (i : Instr) (waits : Bool) (r : FRes) (v : W60 → Bool) => ∃ t w, exec i s = .next t ∧ r.holds w ∧
      s.ranFree t x ((c.wr f.dst.toNat (toWords 3 w.toNat)).after f waits (fl w (v w)))
    let vOf := fun (finite : Bool) (w : W60) => f60IsNan w || (finite && !f60Finite w)
    (f.w = 3 → chordOk f.srca 3 = true → chordOk f.dst 3 = true →
      (f.sel ≠ 1 → puts (.fsqrt x f) false (fSqrt a) (vOf (f60Finite a)) ∧
        puts (.fabs x f) false (.val (BitVec.ofNat 60 (a.toNat % 2 ^ 59))) (fun _ => c.fl.v) ∧
        puts (.fneg x f) false (.val (BitVec.ofNat 60 (a.toNat + 2 ^ 59))) (fun _ => c.fl.v)) ∧
      ∀ b, s.operandB x f 3 b →
        let bw : W60 := BitVec.ofNat 60 b
        let both := f60Finite a && f60Finite bw
        (f.sel ≠ 1 → puts (.fadd x f) f.slow (fAdd a bw) (vOf both) ∧ puts (.fsub x f) f.slow (fSub a bw) (vOf both) ∧
          puts (.fmul x f) f.slow (fMul a bw) (vOf both) ∧
          puts (.fdiv x f) f.slow (fDiv a bw) (vOf (both || f60IsZero bw))) ∧
        puts (.fscl x f) f.slow (fScale a (BitVec.ofNat 20 b : Word).toInt) (vOf (f60Finite a))) ∧
    (f.w = 3 → f.sel ≠ 1 → chordOk f.srca 3 = true → ∀ b, s.operandB x f 3 b →
      let bw : W60 := BitVec.ofNat 60 b
      let nan := f60IsNan a || f60IsNan bw
      ∃ t, exec (.fcmp x f) s = .next t ∧ s.ranOne t x (c.after f f.slow
        { c.fl with z := !nan && decide (f60Order a bw = 0), n := !nan && decide (f60Order a bw < 0),
                    c := !nan && decide (0 ≤ f60Order a bw), v := nan })) ∧
    (1 ≤ f.w → f.w ≤ 5 → f.sel ≠ 1 → chordOk f.srca f.w = true → chordOk f.dst 3 = true →
      let n := 20 * f.w
      let i := c.chord f.srca.toNat f.w
      let v : Int := if f.m 0 = true ∧ 2 ^ (n - 1) ≤ i then (i : Int) - (2 : Int) ^ n else i
      puts (.fcvti x f) false (.val (f60OfExact v 0)) (fun _ => false)) ∧
    (1 ≤ f.w → f.w ≤ 5 → f.sel ≠ 1 → chordOk f.srca 3 = true → chordOk f.dst f.w = true →
      let r := f60ToWords f.w (f.mode.toNat % 4) (f.m 2) a
      s.gives (.fcvtf x f) x f false f.w r.1 { c.fl.result (20 * f.w) r.1 with v := r.2 })

/-- R349: a result is the float60 nearest to the exact value, ties to even, where its magnitude is in range: of num / den × 2^e the rounding
±m × 2^k has 2⁴⁸ ≤ m < 2⁴⁹, and m × 2^k lies within half of 2^k of the exact value, with m even at exactly half. A value that a float60 holds
is not changed.
Where the spec leaves a reading open it is the model's: notes/assumptions, entry 141. -/
def Obligations.FloatRounding : Prop :=
  (∀ (neg sg : Bool) (num den m : Nat) (e k : Int), 0 < num → 0 < den → f60Val (f60Round neg num den e) = .fin sg m k → m ≠ 0 →
    sg = neg ∧ 2 ^ 48 ≤ m ∧ m < 2 ^ 49 ∧
    let p : Int := (num : Int) * (2 : Int) ^ (e - k).toNat
    let q : Int := (den : Int) * (2 : Int) ^ (k - e).toNat
    2 * (p - m * q).natAbs ≤ q.natAbs ∧ (2 * (p - m * q).natAbs = q.natAbs → m % 2 = 0)) ∧
  (∀ (w : W60) (sg : Bool) (m : Nat) (k : Int), f60Val w = .fin sg m k → m ≠ 0 → f60Round sg m 1 k = w)


/-- R303, R312, R313, R317, R341, R346 to R348: integer arithmetic, and the word and store forms. -/
def Obligations.ArithmeticAndWords : Prop := Sys2Proof.Machine.ArithmeticRule ∧ Sys2Proof.Machine.WordsAndStoresRule

/-! ### Linkan-20: time, commits and arms -/

/-- The status word of a conversion (R352). -/
def Sys2Proof.Machine.State.convWord (s : State) (k : TunId) : Word :=
  BitVec.ofNat 20 ((if s.rBit (Reg.tunCtrl k) 19 then 0 else 0x80000) + (if s.rBit (Reg.tunStatus k) 19 || (s.isChild k && s.rBit (Reg.tunStatus 0) 19) then 0x40000 else 0) +
    (if s.isChild k then 0x20000 else 0) + (if s.rBit (Reg.tunStatus k) 14 then 0x10000 else 0) +
    (if s.rBit (Reg.tunStatus k) 13 then 0x8000 else 0) + s.rFld (Reg.tunStatus k) 0 8)

/-- R24, R44, R46, R47, R48, R56, R62, R304, R352, R353, R451: the instructions that read and convert time. RDNUT gives the value of the course's replica;
N2T and T2N convert under the anchors of their tick, 0 for a disabled tuning, with the status word at G(DST + 7); all three wait for a
replica out of service. SDIFF, SEXT and NTPF compute R352's difference, R44's extension and R62's timestamp and era.
Where the spec leaves a reading open it is the model's: notes/assumptions, entry 142. -/
def Obligations.TimeInstructions : Prop :=
  ∀ (s : State) (x : CtxId) (f : Fields), s.ready x f →
    let c := s.ctx x
    let rep := s.replicas.get ⟨(courseOf x).val, by omega⟩
    let k : TunId := Fin.ofNat 16 (f.imm.toNat % 16)
    let on := s.rBit (Reg.tunCtrl k) 19
    let converted := fun (w r : Nat) => ((c.wr f.dst.toNat (toWords w r)).wr (f.dst.toNat + 7) [s.convWord k]).after f true
      { c.fl with z := !on, n := s.rBit (Reg.tunStatus k) 19 || (s.isChild k && s.rBit (Reg.tunStatus 0) 19) }
    let held := { c with mode := .stall, stall := .fence }
    (f.w = 4 → chordOk f.dst 4 = true →
      (rep.fence = .service → ∃ t, exec (.rdnut x f) s = .next t ∧
        s.ranOne t x ((c.wr f.dst.toNat (toWords 4 (s.nut + rep.dev).toNat)).after f true c.fl)) ∧
      (rep.fence ≠ .service → ∃ t, exec (.rdnut x f) s = .next t ∧ s.ranOne t x held)) ∧
    (f.w = 5 → chordOk f.srca 4 = true → f.dst.toNat % 8 = 0 →
      (rep.fence = .service → ∃ t, exec (.n2t x f) s = .next t ∧
        s.ranOne t x (converted 5 (if on then s.reading k (BitVec.ofNat 80 (c.chord f.srca.toNat 4)) else 0).toNat)) ∧
      (rep.fence ≠ .service → ∃ t, exec (.n2t x f) s = .next t ∧ s.ranOne t x held)) ∧
    (f.w = 4 → chordOk f.srca 5 = true → f.dst.toNat % 8 = 0 →
      (rep.fence = .service → ∃ t, exec (.t2n x f) s = .next t ∧
        s.ranOne t x (converted 4 (if on then nutOfReading (s.anchor k) (BitVec.ofNat 100 (c.chord f.srca.toNat 5)) else 0).toNat)) ∧
      (rep.fence ≠ .service → ∃ t, exec (.t2n x f) s = .next t ∧ s.ranOne t x held)) ∧
    (f.w = 2 → chordOk f.srca 2 = true → chordOk f.dst 2 = true → ∀ b, s.operandB x f 2 b →
      let r := (c.chord f.srca.toNat 2 + 2 ^ 40 - b) % 2 ^ 40
      ∃ t, exec (.sdiff x f) s = .next t ∧ s.ranOne t x ((c.wr f.dst.toNat (toWords 2 r)).after f f.slow (c.fl.result 40 r))) ∧
    (f.w = 4 → chordOk f.srca 2 = true → chordOk f.dst 4 = true → ∀ b, s.operandB x f 4 b →
      let d0 : Int := ((c.chord f.srca.toNat 2 : Int) - (b / 256 : Nat)) % (2 : Int) ^ 40
      let d : Int := if (2 : Int) ^ 39 ≤ d0 then d0 - (2 : Int) ^ 40 else d0
      let r := ((((b / 256 : Nat) : Int) * 256 + d * 256) % (2 : Int) ^ 80).toNat
      ∃ t, exec (.sext x f) s = .next t ∧ s.ranOne t x ((c.wr f.dst.toNat (toWords 4 r)).after f f.slow c.fl)) ∧
    (f.w = 4 → chordOk f.srca 5 = true → chordOk f.dst 4 = true →
      let v : FullTime := BitVec.ofNat 100 (c.chord f.srca.toNat 5)
      let q := roundHaz (((ftNs v * 2 ^ 22 + ftFrac v : Nat) : Int) * (2 : Int) ^ 32) (1000000000 * (2 : Int) ^ 22)
      let u : Int := signed48 (ftSec v) + 2208988800 + (if q = (2 : Int) ^ 32 then 1 else 0)
      let r := (u / (2 : Int) ^ 32 % 65536 * (2 : Int) ^ 64 + u % (2 : Int) ^ 32 * (2 : Int) ^ 32 +
        (if q = (2 : Int) ^ 32 then 0 else q)).toNat
      ∃ t, exec (.ntpf x f) s = .next t ∧ s.ranOne t x ((c.wr f.dst.toNat (toWords 4 r)).after f false c.fl))

/-- From `s` to `t` a TCMT of context x, of commit `c` to tuning k, starts to cross behind those before it, and the context waits for its
status (R53, R354). -/
def Sys2Proof.Machine.State.sentCommit (s t : State) (x : CtxId) (f : Fields) (k : TunId) (c : Commit) : Prop :=
  let v := s.ctx x
  t.ctx x = { v with pc := v.pc + 1, issued := v.issued + 1, mode := .stall, stall := .commit } ∧ (∀ y, y ≠ x → t.ctx y = s.ctx y) ∧
  t.tunings.get k = { s.tunings.get k with progs := (s.tunings.get k).progs ++ [⟨courseOf x, x, v.item, f.dst, f.sf, c⟩] } ∧
  (∀ j, j ≠ k → t.tunings.get j = s.tunings.get j) ∧ t.flight = s.flight ++ [(⟨51 + (courseOf x).val, by omega⟩, .prog k x)] ∧
  t = { s with ctxs := t.ctxs, counters := t.counters, quiet := t.quiet, lastPc := t.lastPc, lastIss := t.lastIss, tunings := t.tunings,
               flight := t.flight }

/-- R51, R53, R54, R304, R354, R466: TCMT. A system context's commit, the kind its row has or 3 by MODE[1:0], crosses and the context waits; with
the course's replica out of service it waits for that first; a user context takes PRIV with TUN_STATUS.ERR set. On its commit tick, which no
other commit to its tuning takes, it takes effect, and G(DST) gets its status and the GEN after it; one that R54 discards leaves the
anchor and gets 1 with ERR set; during a step sequence one to T0 or a child of T0 gets 2 and is not applied. -/
def Obligations.ProgramCommits : Prop :=
  (∀ (s : State) (x : CtxId) (f : Fields), s.ready x f → f.w = 1 → f.srca.toNat % 16 = 0 →
    let c := s.ctx x
    let k : TunId := Fin.ofNat 16 (f.imm.toNat % 16)
    let com : BitVec 2 → Commit := fun kind =>
      { kind := if f.mode.toNat % 4 = 3 then 3 else kind, seq := false, parent := f.mode.getLsbD 2,
        nut := BitVec.ofNat 80 (c.chord f.srca.toNat 4), val := BitVec.ofNat 100 (c.chord (f.srca.toNat + 8) 5),
        rate := BitVec.ofNat 40 (c.chord (f.srca.toNat + 4) 2) }
    (c.sys = true → (s.replicas.get ⟨(courseOf x).val, by omega⟩).fence = .service →
      (∃ t, exec (.tcmtFull x f) s = .next t ∧ s.sentCommit t x f k (com 0)) ∧
      (∃ t, exec (.tcmtRate x f) s = .next t ∧ s.sentCommit t x f k (com 1)) ∧
      (∃ t, exec (.tcmtStep x f) s = .next t ∧ s.sentCommit t x f k (com 2))) ∧
    ∀ i ∈ [Instr.tcmtFull x f, .tcmtRate x f, .tcmtStep x f],
      (c.sys = true → (s.replicas.get ⟨(courseOf x).val, by omega⟩).fence ≠ .service →
        ∃ t, exec i s = .next t ∧ s.ranOne t x { c with mode := .stall, stall := .fence }) ∧
      (c.sys = false → ∃ t, exec i s = .next t ∧ t.rBit (Reg.tunStatus k) 15 = true ∧ t.tunings = s.tunings ∧
        (t.ctx x).item = c.item + 1)) ∧
  (∀ (s : State) (k : TunId) (e : ProgCommit), (s.tunings.get k).host = none → (s.tunings.get k).progs = [e] →
    s.isVoid ⟨51 + e.course.val, by omega⟩ = false → s.tickTaken k = false → (s.ctx e.x).item = e.item →
    (∀ j, j ≠ k → (s.tunings.get j).host = none ∧ (s.tunings.get j).progs = []) →
    let held := s.rBit Reg.brgLoopStat 16 = true ∧ (k = 0 ∨ s.isChild k = true)
    let tells := fun (t : State) (code : Nat) =>
      (t.tunings.get k).progs = [] ∧
      fld ((t.ctx e.x).r e.dst.toNat) 16 4 = code ∧ fld ((t.ctx e.x).r e.dst.toNat) 0 8 = t.rFld (Reg.tunStatus k) 0 8 ∧
      (t.ctx e.x).fl = (if e.sf then { (s.ctx e.x).fl with z := decide (code = 0) } else (s.ctx e.x).fl) ∧
      (t.ctx e.x).stall = .result ∧ (∀ i, i < 64 → i ≠ e.dst.toNat → (t.ctx e.x).r i = (s.ctx e.x).r i) ∧
      ∀ y, y ≠ e.x → t.ctx y = s.ctx y
    (held → ∃ t, exec .commitTick s = .next t ∧ tells t 2 ∧ t.regs = s.regs) ∧
    (¬ held → commitBad s k e.c = true →
      ∃ t, exec .commitTick s = .next t ∧ tells t 1 ∧ t.anchor k = s.anchor k ∧ t.rBit (Reg.tunStatus k) 15 = true) ∧
    (¬ held → commitBad s k e.c = false → ∃ t, exec .commitTick s = .next t ∧ tells t 0 ∧
      t.rFld (Reg.tunStatus k) 0 8 = (s.rFld (Reg.tunStatus k) 0 8 + 1) % 256 ∧
      (e.c.kind = 0 → t.reg80 (Reg.tunAncNut k) = e.c.nut ∧ t.reg100 (Reg.tunAncVal k) = e.c.val ∧
        t.reg40 (Reg.tunAncRate k) = e.c.rate ∧ t.rBit (Reg.tunStatus k) 18 = e.c.parent) ∧
      (e.c.kind = 1 → t.reg80 (Reg.tunAncNut k) = s.nut ∧ t.reg40 (Reg.tunAncRate k) = e.c.rate ∧
        t.reading k s.nut = s.reading k s.nut) ∧
      (e.c.kind = 2 → t.reg80 (Reg.tunAncNut k) = s.nut ∧ t.reading k s.nut = ftAdd (s.reading k s.nut) e.c.val)))

/-- From `s` to `t` an ARMP's request of general pluck g starts to cross, and its context waits for the arm tick (R134, R344). -/
def Sys2Proof.Machine.State.sentArm (s t : State) (x : CtxId) (g : PluckId) (r : PluckReq) : Prop :=
  let c := s.ctx x
  t.ctx x = { c with pc := c.pc + 1, issued := c.issued + 1, mode := .stall, stall := .arm } ∧ (∀ y, y ≠ x → t.ctx y = s.ctx y) ∧
  t.rFld (Reg.plkStat g) 17 2 = 2 ∧ t.plucks.get g = { s.plucks.get g with pend := some r, next := none } ∧
  (∀ h, h ≠ g → t.plucks.get h = s.plucks.get h) ∧ t.flight = s.flight ++ [(⟨51 + (courseOf x).val, by omega⟩, .gen g)] ∧
  t.tunings = s.tunings ∧ t.edges = s.edges ∧ t.courses = s.courses

/-- From `s` to `t` an ARMP's request of edge pluck o starts to cross, and its context waits for the arm tick (R134, R344). -/
def Sys2Proof.Machine.State.sentEdgeArm (s t : State) (x : CtxId) (o : OutId) (r : PluckReq) : Prop :=
  let c := s.ctx x
  t.ctx x = { c with pc := c.pc + 1, issued := c.issued + 1, mode := .stall, stall := .arm } ∧ (∀ y, y ≠ x → t.ctx y = s.ctx y) ∧
  t.rBit (Reg.plkEdgeStat o) 18 = true ∧ (t.edges.get o).pluck = { (s.edges.get o).pluck with pend := some r, next := none } ∧
  (∀ h, h ≠ o → t.edges.get h = s.edges.get h) ∧ t.flight = s.flight ++ [(⟨51 + (courseOf x).val, by omega⟩, .edge o)] ∧
  t.tunings = s.tunings ∧ t.plucks = s.plucks ∧ t.courses = s.courses

/-- R133, R134, R304, R344, R345, R466: ARMP of a system context in a course whose replica serves. An arm writes the block into the pluck's
registers, their rw bits alone, and crosses with the configuration they hold; a disarm crosses without a block; the context waits for
the arm tick. Where the course's crossing is void the request waits, BUSY, for the handshake. An ARMP that meets PENDING completes BUSY
and changes nothing else. On the arm tick of an arm that R136 and R138 let pass, G(DST) gets 0.
Where the spec leaves a reading open it is the model's: notes/assumptions, entry 137. -/
def Obligations.ProgramArms : Prop :=
  (∀ (s : State) (x : CtxId) (f : Fields), s.ready x f → f.w = 1 → f.srca.toNat % 16 = 0 → (s.ctx x).sys = true →
    (s.replicas.get ⟨(courseOf x).val, by omega⟩).fence = .service →
    let c := s.ctx x
    let a := f.srca.toNat
    let void := s.isVoid ⟨51 + (courseOf x).val, by omega⟩
    let waiting := { c with pc := c.pc + 1, issued := c.issued + 1, mode := .stall, stall := .arm }
    let busy := fun (i : Instr) => ∃ t, exec i s = .next t ∧
      s.ranOne t x ((c.wr f.dst.toNat [0x40000]).after f true { c.fl with z := false })
    let tail := some (x, c.item, f.dst, f.sf)
    let put := fun (t : State) (r : Nat) (ws : List Word) => ∀ (i : Nat) (w : Word), ws[i]? = some w →
      t.reg (r + 4 * i) &&& regRwMask (r + 4 * i) = w &&& regRwMask (r + 4 * i)
    (bitOf f.imm 8 = false →
      let g : PluckId := Fin.ofNat 256 ((courseOf x).val * 64 + f.imm.toNat % 64)
      let block := fun (t : State) =>
        put t (Reg.plkCtrl g) [c.r a] ∧ put t (Reg.plkDest g) [c.r (a + 1)] ∧ put t (Reg.plkTgt g) (c.rd (a + 2) 5) ∧
          put t (Reg.plkPer g) (c.rd (a + 7) 3) ∧ put t (Reg.plkArg g) (c.rd (a + 10) 2) ∧
          s.regsBut t (Reg.plkStat g :: Reg.plkCtrl g :: Reg.plkDest g :: wordsAt (Reg.plkTgt g) 5 ++ wordsAt (Reg.plkPer g) 3 ++
            wordsAt (Reg.plkArg g) 2)
      (s.rFld (Reg.plkStat g) 17 2 = 0 → (s.plucks.get g).pend = none →
        (void = false →
          (∃ t, exec (.armpArm x f) s = .next t ∧ s.sentArm t x g ⟨true, false, t.plkCfg g, tail⟩ ∧ block t) ∧
          (∃ t, exec (.armpDisarm x f) s = .next t ∧ s.sentArm t x g ⟨false, true, PluckCfg.zero, tail⟩ ∧
            s.regsBut t [Reg.plkStat g])) ∧
        (void = true →
          (∃ t, exec (.armpArm x f) s = .next t ∧ t.ctx x = waiting ∧ t.rFld (Reg.plkStat g) 17 2 = 1 ∧
            t.plucks.get g = { s.plucks.get g with next := some ⟨true, false, t.plkCfg g, tail⟩ } ∧ t.flight = s.flight ∧ block t) ∧
          (∃ t, exec (.armpDisarm x f) s = .next t ∧ t.ctx x = waiting ∧ t.rFld (Reg.plkStat g) 17 2 = 1 ∧
            t.plucks.get g = { s.plucks.get g with next := some ⟨false, true, PluckCfg.zero, tail⟩ } ∧ t.flight = s.flight ∧
            s.regsBut t [Reg.plkStat g]))) ∧
      (s.rBit (Reg.plkStat g) 18 = true → busy (.armpArm x f) ∧ busy (.armpDisarm x f))) ∧
    (bitOf f.imm 8 = true →
      let o : OutId := Fin.ofNat 8 (f.imm.toNat % 8)
      (s.rBit (Reg.plkEdgeStat o) 18 = false → s.rBit (Reg.plkEdgeStat o) 10 = false → (s.edges.get o).pluck.pend = none →
        void = false →
        (bitOf (c.r a) 19 = s.rBit (Reg.plkEdgeCtrl o) 19 →
          ∃ t, exec (.armpArm x f) s = .next t ∧ s.sentEdgeArm t x o ⟨true, false, t.edgeCfg o, tail⟩ ∧
            put t (Reg.plkEdgeCtrl o) [c.r a] ∧ put t (Reg.plkEdgeTgt o) (c.rd (a + 2) 5) ∧
            put t (Reg.plkEdgePer o) (c.rd (a + 7) 3) ∧ put t (Reg.plkEdgeWidth o) (c.rd (a + 12) 2)) ∧
        (∃ t, exec (.armpDisarm x f) s = .next t ∧ s.sentEdgeArm t x o ⟨false, true, PluckCfg.zero, tail⟩ ∧
          s.regsBut t [Reg.plkEdgeStat o])) ∧
      (s.rBit (Reg.plkEdgeStat o) 18 = true → busy (.armpArm x f) ∧ busy (.armpDisarm x f)))) ∧
  (∀ (s : State) (g : PluckId) (q : PluckCfg) (x : CtxId) (item : Nat) (dst : BitVec 6) (sf : Bool),
    s.rBit Reg.plkGstat 19 = false → (s.plucks.get g).pend = some ⟨true, false, q, some (x, item, dst, sf)⟩ → (s.ctx x).item = item →
    fld q.ctrl 16 4 = 1 → bitOf q.ctrl 15 = false → bitOf q.ctrl 10 = false → bitOf q.ctrl 7 = false → fld q.ctrl 8 2 = 0 →
    ∃ t, exec (.pluckArmTick (.gen g)) s = .next t ∧ t.rBit (Reg.plkStat g) 19 = true ∧ (t.ctx x).r dst.toNat = 0 ∧
      (sf = true → (t.ctx x).fl.z = true) ∧ (t.ctx x).stall = .result)

/-! ### Linkan-20: the packet window and its frames -/

/-- R315, R317, R340, R341, R355, R356, R358, R369: SETPW to a slot of the context's own or outside the receive pool; LDF, which waits for its
field; STF, where no send or lane job of the slot holds it, which changes the field's bits and no other bit of any packet buffer; and CKSUM over bytes that are in the window, sound
and not awaited: the ones' complement sum of 16-bit big-endian words from G(DST)[15:0], as MODE[1:0] has it. -/
def Sys2Proof.Machine.PacketWindowRule : Prop :=
  ∀ (s : State) (x : CtxId) (f : Fields), s.ready x f →
    let c := s.ctx x
    let k := courseOf x
    let pw := c.pw.toNat
    let len := f.imm.toNat % 64 + 1
    let o := f.imm.toNat / 64 + (if f.m 0 then 8 * ((c.r f.srca.toNat).toNat % 2048) else 0)
    let slot := if f.m 0 then f.imm.toNat % 512 else (c.r f.srca.toNat).toNat / 2048
    (f.w = 1 → (c.slot = some slot ∨ s.rFld (Reg.crsBufCfg k) 0 9 ≤ slot) → ∃ t, exec (.setpw x f) s = .next t ∧
      s.ranOne t x ({ c with pw := BitVec.ofNat 20 (slot * 2048) }.after f false c.fl)) ∧
    (1 ≤ f.w → f.w ≤ 5 → chordOk f.dst f.w = true → len ≤ 20 * f.w → ∀ b, s.fieldIs x o len b →
      s.gives (.ldf x f) x f true f.w b (c.fl.result (20 * f.w) b)) ∧
    (1 ≤ f.w → f.w ≤ 5 → chordOk f.srcb f.w = true → len ≤ 20 * f.w → o + len ≤ 16384 →
      s.storeWaits x (pw + o / 8) ((o + len + 7) / 8 - o / 8) = false →
      (pw + o / 8) / 2048 ∉ (s.course k).sending →
      (∀ i, i < 2048 → ((s.course k).buf.read? ((pw + i) % 1048576)).isSome = true) → pw + 2048 ≤ 1048576 →
      ∃ t, exec (.stf x f) s = .next t ∧ t.ctx x = c.after f false c.fl ∧
        (∀ j, j < len → ∀ y, (t.course k).buf.read? (pw + (o + j) / 8) = some y →
          y.getLsbD (7 - (o + j) % 8) = (c.chord f.srcb.toNat f.w).testBit (len - 1 - j)) ∧
        (∀ j, j < 16384 → (j < o ∨ o + len ≤ j) → ∀ y z, (s.course k).buf.read? (pw + j / 8) = some y →
          (t.course k).buf.read? (pw + j / 8) = some z → z.getLsbD (7 - j % 8) = y.getLsbD (7 - j % 8)) ∧
        (∀ i, i < 2048 → ((t.course k).buf.read? (pw + i)).isSome = true) ∧
        (∀ a, (a < pw ∨ pw + 2048 ≤ a) → (t.course k).buf.read? a = (s.course k).buf.read? a) ∧
        (∀ y, y ≠ k → t.course y = s.course y) ∧ (∀ y, y ≠ x → t.ctx y = s.ctx y) ∧ t.regs = s.regs) ∧
    (f.w = 1 → f.sel ≤ 1 → f.mode.toNat % 4 ≠ 3 →
      let a := f.imm.toNat % 2048 + (c.r f.srca.toNat).toNat % 2048
      let n := if f.sel = 1 then f.imm.toNat / 2048 else (c.r f.srcb.toNat).toNat % 4096
      ∀ bs : List Byte, bs.length = n → (∀ i, i < n → (s.course k).buf.read? ((pw + a + i) % 1048576) = bs[i]?) → a + n ≤ 2048 →
        s.loadWaits x (pw + a) n = false → s.badByte k (pw + a) n = none →
        let words := (List.range ((n + 1) / 2)).map fun i => (bs.getD (2 * i) 0).toNat * 256 + (bs.getD (2 * i + 1) 0).toNat
        let sum := (c.r f.dst.toNat).toNat % 65536 + words.foldl (· + ·) 0
        let v := if sum = 0 then 0 else (sum - 1) % 65535 + 1
        let r := if f.mode.toNat % 4 = 0 then v else if f.mode.toNat % 4 = 1 then 65535 - v else if v = 65535 then 65535 else 65535 - v
        s.gives (.cksum x f) x f true 1 r { c.fl with z := decide (r = 0) })

/-- The send that a SEND instruction issues (R357). -/
def Sys2Proof.Machine.State.sendOf (s : State) (x : CtxId) (f : Fields) (kind : Nat) : Send :=
  let c := s.ctx x
  let a := (c.r f.srca.toNat).toNat
  let spec := if kind = 0 then [] else c.rd f.srcb.toNat 7
  { course := courseOf x, x := some (x, c.item), ring := none, slot := c.pw.toNat / 2048,
    own := decide (c.slot = some (c.pw.toNat / 2048)), port := Fin.ofNat 24 (a / 4096 % 32), len := a % 4096, kind := kind, spec := spec,
    report := if kind = 0 then bitOf f.imm 18 else bitOf (spec.getD 6 0) 16, notify := bitOf f.imm 19 || decide (kind = 2),
    tag := BitVec.ofNat 32 (f.imm.toNat % 4096), target := if kind = 2 then BitVec.ofNat 80 (c.chord f.dst.toNat 4) else 0 }

/-- The course holds the slot of a send that has started, and the context no longer does (R358); it counts one more. -/
def Sys2Proof.Machine.State.sendsFrom (s t : State) (x : CtxId) (f : Fields) (e : Send) : Prop :=
  let c := s.ctx x
  t.ctx x = { c.after f false c.fl with sends := c.sends + 1, slot := if e.own then none else c.slot } ∧
  e.slot ∈ (t.course e.course).sending ∧ (∀ y, y ≠ x → t.ctx y = s.ctx y) ∧ t.regs = s.regs ∧
  (t.course e.course).used = (s.course e.course).used ∧ (∀ q, q ≠ e.port → t.port q = s.port q)

/-- R152, R153, R275, R292, R293, R320, R357, R358: SEND of the three kinds from a slot the context owns or may use, with fewer than four sends
outstanding. A plain or one-step frame joins the course's queue of its port, a launch-time one whose firing tick lies ahead arms a
launch pluck; one from a slot with a send outstanding, too long, to a port without link, to a full queue or too late ends at once with its
status, in that order where several hold (the model's, notes/assumptions/30.md), and no frame is queued. -/
def Obligations.Sends : Prop :=
  ∀ (s : State) (x : CtxId) (f : Fields), s.ready x f → f.w = 1 → f.mode.toNat % 4 ≠ 3 → (s.ctx x).sends < 4 →
    let c := s.ctx x
    let k := courseOf x
    let slot := c.pw.toNat / 2048
    let busy := slot ∈ (s.course k).sending
    (c.slot = some slot ∨ s.rFld (Reg.crsBufCfg k) 0 9 ≤ slot ∨ busy) →
    ((s.ownJobs x).any fun j => meets j.writes (slot * 2048, 2048)) = false → (c.r f.srca.toNat).toNat / 4096 % 32 < 24 →
    ∀ p ∈ [(Instr.sendPlain x f, 0), (.sendOneStep x f, 1), (.sendLaunch x f, 2)],
      (p.2 = 0 ∨ f.srcb.toNat % 8 = 0) → (p.2 = 2 → chordOk f.dst 4 = true) →
      let e := s.sendOf x f p.2
      let short := e.len ≤ 2044 ∧ e.len + 4 ≤ s.rFld (Reg.prtMaxlen e.port) 0 12
      let link := s.rBit (Reg.prtStat e.port) 19 = true
      let y := s.port e.port
      (¬ busy → short → link → p.2 < 2 → (y.queues.get k).length < 32 → ∃ t, exec p.1 s = .next t ∧ s.sendsFrom t x f e ∧
        (t.port e.port).queues.get k = y.queues.get k ++ [e] ∧ (t.port e.port).launch = y.launch ∧
        (t.course k).sent = (s.course k).sent) ∧
      (¬ busy → short → link → p.2 = 2 → y.launch.length < 64 → (s.nut.toNat : Int) ≤ launchTick e.target → ∃ t, exec p.1 s = .next t ∧
        s.sendsFrom t x f e ∧ (t.port e.port).launch = y.launch ++ [e] ∧ (t.port e.port).queues = y.queues ∧
        (t.course k).sent = (s.course k).sent) ∧
      (∀ st late, ((busy ∧ st = 9 ∧ late = 0) ∨ (¬ busy ∧ ¬ short ∧ st = 8 ∧ late = 0) ∨ (¬ busy ∧ short ∧ ¬ link ∧ st = 6 ∧ late = 0) ∨
          (¬ busy ∧ short ∧ link ∧ p.2 < 2 ∧ 32 ≤ (y.queues.get k).length ∧ st = 5 ∧ late = 0) ∨
          (¬ busy ∧ short ∧ link ∧ p.2 = 2 ∧ (s.nut.toNat : Int) ≤ launchTick e.target ∧ 64 ≤ y.launch.length ∧ st = 4 ∧ late = 0) ∨
          (¬ busy ∧ short ∧ link ∧ p.2 = 2 ∧ launchTick e.target < s.nut.toNat ∧ st = 3 ∧
            late = ((s.nut.toNat - launchTick e.target) / 163840).toNat)) →
        ∃ t, exec p.1 s = .next t ∧ s.sendsFrom t x f e ∧ t.ports = s.ports ∧
          (t.course k).sent = (s.course k).sent ++ [⟨e, doneOf e st late false⟩])

/-- R280, R290, R293, R315, R320, R325, R358, R359: PUNT, DROP and the completion of a send. PUNT hands G52 to G63 and the frame to ring IMM[2:0] with
the context's slot; DROP gives the slot back. A completion that R293 marks released frees the slot; another returns it to its context
while its work item runs; the context has one send less and, where it asked, the completion's event. -/
def Sys2Proof.Machine.FrameEndsRule : Prop :=
  (∀ (s : State) (x : CtxId) (f : Fields), s.ready x f → f.w = 1 →
    let c := s.ctx x
    let k := courseOf x
    let slot := c.pw.toNat / 2048
    let n := (c.r 56).toNat % 4096
    (∀ bs : List Byte, (c.slot = some slot ∨ s.rFld (Reg.crsBufCfg k) 0 9 ≤ slot) → n ≤ 2048 → bs.length = n →
      (∀ i, i < n → (s.course k).buf.read? ((c.pw.toNat + i) % 1048576) = bs[i]?) → s.badByte k c.pw.toNat n = none →
      ∃ t, exec (.punt x f) s = .next t ∧
        t.ctx x = { c.after f false c.fl with slot := if c.slot = some slot then none else c.slot } ∧
        (t.course k).punts = (s.course k).punts ++
          [⟨Fin.ofNat 8 (f.imm.toNat % 8), Vector.ofFn fun i => c.r (52 + i.val), bs, if c.slot = some slot then some slot else none⟩] ∧
        (t.course k).used = (s.course k).used ∧ (∀ y, y ≠ x → t.ctx y = s.ctx y) ∧ t.regs = s.regs) ∧
    (∃ t, exec (.drop x f) s = .next t ∧ t.ctx x = { c.after f false c.fl with slot := none } ∧
      (∀ j, c.slot = some j → (t.course k).used = (s.course k).used.erase j) ∧
      (c.slot = none → (t.course k).used = (s.course k).used) ∧ t.regs = s.regs ∧ ∀ y, y ≠ x → t.ctx y = s.ctx y)) ∧
  (∀ (s : State) (c : CourseId) (u : Sent) (us : List Sent) (x : CtxId) (item : Nat), (s.course c).sent = u :: us →
    u.send.course = c → courseOf x = c → u.send.x = some (x, item) → (s.ctx x).item = item → (s.ctx x).mode = .run → u.d.status ≠ 9 →
    u.send.own = true →
    ∃ t, exec (.sendComplete c) s = .next t ∧ (t.course c).sent = us ∧ (t.course c).sending = (s.course c).sending.erase u.send.slot ∧
      (t.ctx x).sends = (s.ctx x).sends - 1 ∧
      (t.ctx x).done = (s.ctx x).done ++ (if u.send.notify then [{ u.d with at_ := s.nut }] else []) ∧
      (u.d.status ≤ 2 → (t.course c).used = (s.course c).used.erase u.send.slot ∧ (t.ctx x).slot = (s.ctx x).slot) ∧
      (2 < u.d.status → (t.course c).used = (s.course c).used ∧ (t.ctx x).slot = some u.send.slot)) ∧
  (∀ (s : State) (c : CourseId), (s.course c).sent = [] → ∃ t, exec (.sendComplete c) s = .next t ∧ t = s)


/-- R280, R290, R293, R315, R317, R320, R325, R340, R341, R355 to R359, R369: the packet window and the ends of a frame.
Where the spec leaves a reading open it is the model's: notes/assumptions, entries 32, 128. -/
def Obligations.PacketInstructions : Prop := Sys2Proof.Machine.PacketWindowRule ∧ Sys2Proof.Machine.FrameEndsRule

/-! ### Linkan-20: tables, system instructions and crypto -/

/-- The client-table words from address `a` on are `ws`, and none is damaged. -/
def Sys2Proof.Machine.State.clientIs (s : State) (a : Nat) (ws : List Word) : Prop :=
  s.badClient a ws.length = none ∧ ∀ i, i < ws.length → s.client.read? (a + i) = ws[i]?

/-- Way i of a bucket of 64 words is used and holds a key of `kw` words; the words of the key above KW are 0 (R361). -/
def Sys2Proof.Machine.holdsKey (bucket key : List Word) (i : Nat) : Prop :=
  i < 4 ∧ bitOf (bucket.getD (16 * i) 0) 19 = true ∧ ∀ j, j < 5 → bucket.getD (16 * i + 1 + j) 0 = key.getD j 0

/-- From `s` to `t` the client table changes at the words of `l` alone, to what `l` gives. -/
def Sys2Proof.Machine.State.clientPut (s t : State) (l : List (Nat × Word)) : Prop :=
  (∀ p ∈ l, t.client.read? p.1 = some p.2) ∧ ∀ a, (∀ p ∈ l, a ≠ p.1) → t.client.read? a = s.client.read? a

/-- The eight registers and the flag of a table instruction (R362): STATUS and way, age, entries removed and the data half. -/
def Sys2Proof.Machine.State.tabGives (s t : State) (x : CtxId) (f : Fields) (status way age removed : Nat) (d : List Word) : Prop :=
  t.ctx x = ((s.ctx x).wr f.dst.toNat ([BitVec.ofNat 20 (status * 65536 + way), BitVec.ofNat 20 age, BitVec.ofNat 20 removed] ++ d)).after
    f true { (s.ctx x).fl with z := decide (status = 0 ∨ status = 2) } ∧ ∀ y, y ≠ x → t.ctx y = s.ctx y

/-- R337, R360 to R364: the table instructions on one key and its bucket, of a context whose course's LEVEL is not two below another running
course's. A present key is a HIT of its way: TLKP returns the selected half and with MODE[1] touches the entry; TINS leaves it, or
with MODE[2] writes the half; TUPD writes or with MODE[1] adds to the half; TDEL clears USED. An absent key is a MISS for TLKP, TDEL
and TUPD without INS; TINS, and TUPD with INS, take the lowest unused way, or are FULL. A header that R360 calls bad, or another WID
than KW, completes BADTAB; a course two levels below completes every write COMPAT and changes nothing. What R362 does not state of a
result without an entry is free (notes/assumptions/39.md). -/
def Obligations.Tables : Prop :=
  ∀ (s : State) (x : CtxId) (f : Fields) (hw : List Word), s.ready x f → chordOk f.srca f.w = true → f.dst.toNat % 8 = 0 →
    (f.sel = 0 ∨ f.sel = 3) → 1 ≤ f.w → f.w ≤ 5 → hw.length = 4 → s.clientIs (16 * (f.imm.toNat % 16)) hw →
    let c := s.ctx x
    let k := courseOf x
    let h := tabHead hw
    let now := s.nut.toNat / 65536000000000 % 65536
    let level := fun (d : CourseId) => s.rFld (Reg.crsCompat d) 0 8
    let behind := ∃ d : CourseId, (s.crsState d = CS.run ∨ s.crsState d = CS.draining) ∧ level k + 1 < level d
    let zeros := List.replicate 5 (0 : Word)
    (∀ (key : List Word) (bs : List Word) (b : Nat), key = c.rd f.srca.toNat f.w → h.bad = false → f.w = h.kw → ¬ behind →
      let at_ := h.base + 64 * ((crc32c 0xFFFFFFFF (keyHashBytes key)).toNat % 2 ^ h.b)
      bs.length = 64 → s.clientIs at_ bs →
      let half := if f.m 0 then 11 else 6
      let dataB := toWords 5 b
      let withB := s.operandB x f 5 b
      (∀ i, holdsKey bs key i → (∀ j, j < i → ¬ holdsKey bs key j) →
        let w0 := at_ + 16 * i
        let old := (List.range 5).map fun j => bs.getD (16 * i + half + j) 0
        let age := (now + 65536 - fld (bs.getD (16 * i) 0) 0 16) % 65536
        let touched : Nat × Word := (w0, putFld (bs.getD (16 * i) 0) 0 16 now)
        let halfPut := fun (ws : List Word) => (List.range 5).map fun j => (w0 + half + j, ws.getD j 0)
        let added := (List.range 5).map fun j => (BitVec.ofNat 20 (min 0xFFFFF ((old.getD j 0).toNat + (dataB.getD j 0).toNat)) : Word)
        (∃ t, exec (.tlkp x f) s = .next t ∧ s.tabGives t x f 0 i age 0 old ∧ s.clientPut t (if f.m 1 then [touched] else [])) ∧
        (∃ t, exec (.tdel x f) s = .next t ∧ s.tabGives t x f 0 i age 0 old ∧
          s.clientPut t [(w0, putBit (bs.getD (16 * i) 0) 19 false)]) ∧
        (withB → (∃ t, exec (.tins x f) s = .next t ∧ s.tabGives t x f 0 i age 0 (if f.m 2 then dataB else old) ∧
            s.clientPut t (if f.m 2 then touched :: halfPut dataB else [])) ∧
          ∃ t, exec (.tupd x f) s = .next t ∧ s.tabGives t x f 0 i age 0 (if f.m 1 then added else dataB) ∧
            s.clientPut t (touched :: halfPut (if f.m 1 then added else dataB)))) ∧
      ((∀ i, ¬ holdsKey bs key i) →
        let misses := fun (ins : Instr) (st : Nat) => ∃ t way age, exec ins s = .next t ∧ way < 4 ∧ age < 65536 ∧
          s.tabGives t x f st way age 0 zeros ∧ s.clientPut t []
        misses (.tlkp x f) 1 ∧ misses (.tdel x f) 1 ∧ (withB → f.m 2 = false → misses (.tupd x f) 1) ∧
        (withB → ∀ i, i < 4 → bitOf (bs.getD (16 * i) 0) 19 = false → (∀ j, j < i → bitOf (bs.getD (16 * j) 0) 19 = true) →
          let entry : List Word := (BitVec.ofNat 20 (2 ^ 19 + now)) :: ((List.range 5).map fun j => key.getD j 0) ++
            (if f.m 0 then zeros ++ dataB else dataB ++ zeros)
          ∀ ins ∈ (Instr.tins x f :: if f.m 2 then [.tupd x f] else []), ∃ t, exec ins s = .next t ∧ s.tabGives t x f 2 i 0 0 dataB ∧
            s.clientPut t ((List.range 16).map fun j => (at_ + 16 * i + j, entry.getD j 0))) ∧
        (withB → (∀ i, i < 4 → bitOf (bs.getD (16 * i) 0) 19 = true) → misses (.tins x f) 3))) ∧
    (f.w = 1 → h.bad = false → ¬ behind → ∀ bs : List Word,
      let at_ := h.base + 64 * ((c.r f.srca.toNat).toNat % 65536 % 2 ^ h.b)
      bs.length = 64 → s.clientIs at_ bs →
      let old := (List.range 4).filter fun i => h.age != 0 && bitOf (bs.getD (16 * i) 0) 19 &&
        decide (h.age < (now + 65536 - fld (bs.getD (16 * i) 0) 0 16) % 65536)
      ∃ t, exec (.tage x f) s = .next t ∧ (t.ctx x).r (f.dst.toNat + 2) = BitVec.ofNat 20 old.length ∧
        s.clientPut t (old.map fun i => (at_ + 16 * i, putBit (bs.getD (16 * i) 0) 19 false)) ∧ (t.ctx x).mode = .stall ∧
        (∀ i, i < 64 → (i < f.dst.toNat ∨ f.dst.toNat + 8 ≤ i) → (t.ctx x).r i = c.r i)) ∧
    ((h.bad = true ∨ f.w ≠ h.kw) → ∃ t way age, exec (.tlkp x f) s = .next t ∧ way < 4 ∧ age < 65536 ∧
      s.tabGives t x f 5 way age 0 zeros ∧ s.clientPut t []) ∧
    (h.bad = false → f.w = h.kw → behind → ∃ t way age, exec (.tdel x f) s = .next t ∧ way < 4 ∧ age < 65536 ∧
      s.tabGives t x f 4 way age 0 zeros ∧ s.clientPut t [] ∧ t.reg (Reg.crsCompatRej k) = satAdd (s.reg (Reg.crsCompatRej k)) 1 ∧
      t.rBit (Reg.crsCause k) 13 = true)

/-- R165, R326, R327, R370, R371, R430, R446: the system instructions of a system context. RDCNT gives a counter as it stands or, with MODE[0], as the
snapshot bank holds it; TAGRD and TAGWR read and write a tag area; POST gives the code that R165 has, with POST_ERR for a refused one;
DBELL sets its doorbell's bit. A user context takes a PRIV fault on TAGWR and POST, and nothing changes. -/
def Obligations.SystemInstructions : Prop :=
  ∀ (s : State) (x : CtxId) (f : Fields), s.ready x f →
    let c := s.ctx x
    let k := courseOf x
    let area := f.imm.toNat % 128
    (f.w = 4 → chordOk f.dst 4 = true → cntValid f.imm.toNat = true → (c.sys = true ∨ s.rBit (Reg.crsPerm k) (permBit k f.imm.toNat) = true) →
      (s.replicas.get ⟨k.val, by omega⟩).fence = .service → ∃ t, exec (.rdcnt x f) s = .next t ∧
        (let v := if f.m 0 then s.cntBank f.imm.toNat else t.cntNow f.imm.toNat
         s.ranOne t x ((c.wr f.dst.toNat (toWords 3 v.val.toNat ++ [BitVec.ofNat 20 ((if v.ovf then 0x80000 else 0) +
          (if f.m 0 then 0x40000 + s.rFld Reg.dmpSeq 0 16 else 0))])).after f true c.fl))) ∧
    (f.w = 4 → chordOk f.dst 4 = true → area ≤ 78 → s.gives (.tagrd x f) x f true 4 (s.regN (Reg.tag area) 4) c.fl) ∧
    (f.w = 4 → chordOk f.srca 4 = true → area ≤ 78 → c.sys = true → ∃ t, exec (.tagwr x f) s = .next t ∧ t.ctx x = c.after f true c.fl ∧
      t.regN (Reg.tag area) 4 = c.chord f.srca.toNat 4 ∧ s.regsBut t (wordsAt (Reg.tag area) 4) ∧ ∀ y, y ≠ x → t.ctx y = s.ctx y) ∧
    (f.w = 1 → f.srca.toNat % 16 = 0 → c.sys = true →
      let r : SlotId := Fin.ofNat 16 (f.imm.toNat % 16)
      let nm : Nut := BitVec.ofNat 80 (c.chord f.srca.toNat 4)
      let w9 := c.r (f.srca.toNat + 10)
      let tells := fun (t : State) (code : Nat) => fld ((t.ctx x).r f.dst.toNat) 16 4 = code ∧ (t.ctx x).pc = c.pc + 1 ∧
        (t.ctx x).mode = .stall ∧ (f.sf = true → (t.ctx x).fl = { c.fl with z := decide (code = 0) }) ∧
        ∀ i, i < 64 → i ≠ f.dst.toNat → (t.ctx x).r i = c.r i
      let refused := fun (code : Nat) => ∃ t, exec (.post x f) s = .next t ∧ tells t code ∧ t.rBit (Reg.brgRsStat r) 6 = true ∧
        t.rBit Reg.brgCause 16 = true ∧ t.slots = s.slots ∧ t.bridge = s.bridge
      (bitOf w9 17 = true → s.rBit (Reg.brgRsCfg r) 5 = true → ∃ t, exec (.post x f) s = .next t ∧ tells t 0) ∧
      (bitOf w9 17 = true → s.rBit (Reg.brgRsCfg r) 5 = false → refused 1) ∧
      (bitOf w9 17 = false → s.rsSrc r ≠ 4 → refused 1) ∧
      (bitOf w9 17 = false → s.rsSrc r = 4 → (s.slots.get r).got = true → nm.toNat ≤ (s.reg80 (Reg.brgRsLastnm r)).toNat → refused 2) ∧
      (bitOf w9 17 = false → s.rsSrc r = 4 → ((s.slots.get r).got = true → (s.reg80 (Reg.brgRsLastnm r)).toNat < nm.toNat) →
        (s.nut.toNat < nm.toNat → refused 3) ∧ (nm.toNat ≤ s.nut.toNat → ∃ t, exec (.post x f) s = .next t ∧ tells t 0))) ∧
    (f.w = 1 → f.imm.toNat < 16 → ∃ t, exec (.dbell x f) s = .next t ∧ t.ctx x = c.after f false c.fl ∧
      t.reg (Reg.irqDbell k) = putBit (s.reg (Reg.irqDbell k)) f.imm.toNat true ∧ s.regsBut t [Reg.irqDbell k] ∧
      ∀ y, y ≠ x → t.ctx y = s.ctx y) ∧
    (c.sys = false → ((f.w = 4 ∧ chordOk f.srca 4 = true ∧ area ≤ 78 → ∃ t, exec (.tagwr x f) s = .next t ∧
        t.reg (Reg.strCtxFault (strOf x) (x.val % 8)) = BitVec.ofNat 20 (0x20000 + c.pc.toNat) ∧
        t.regN (Reg.tag area) 4 = s.regN (Reg.tag area) 4) ∧
      (f.w = 1 ∧ f.srca.toNat % 16 = 0 → ∃ t, exec (.post x f) s = .next t ∧ t.slots = s.slots ∧ t.bridge = s.bridge ∧
        t.reg (Reg.strCtxFault (strOf x) (x.val % 8)) = BitVec.ofNat 20 (0x20000 + c.pc.toNat))))

/-- R320, R365 to R369, R478: crypto. A dispatch, the first or second of its context, waits for a lane with its operand block; with PD9 off it completes KEY_EMPTY
at once. The oldest waiting one starts on a free lane, which one is open, and reads its key then. Its end frees the lane, counts the context's jobs down and tells it
a status: LEN_ERR for a region beyond the window; else KEY_EMPTY without a key; else what the operation gives, here CMAC: it writes TLEN bytes of the tag at the output
offset, or with VERIFY compares them and writes nothing.
Where the spec leaves a reading open it is the model's: notes/assumptions, entries 33, 36, 145. -/
def Obligations.Crypto : Prop :=
  (∀ (s : State) (x : CtxId) (f : Fields), s.ready x f → f.w = 1 → f.srca.toNat % 8 = 0 → (s.ctx x).jobs < 2 →
    let c := s.ctx x
    let k := courseOf x
    ∀ p ∈ [(Instr.sivs x f, 0), (.sivo x f, 1), (.cmac x f, 2), (.hmac x f, 3)],
      let j : Job := { x := x, item := c.item, op := p.2, blk := c.rd f.srca.toNat 8, mode := f.mode, imm := f.imm, pw := c.pw }
      (s.powered 9 = true → ∃ t, exec p.1 s = .next t ∧ t.ctx x = { c.after f false c.fl with jobs := c.jobs + 1 } ∧
        (t.course k).jobs = (s.course k).jobs ++ [j] ∧ (t.course k).lanes = (s.course k).lanes ∧ (t.course k).buf = (s.course k).buf ∧
        t.regs = s.regs ∧ (∀ y, y ≠ x → t.ctx y = s.ctx y)) ∧
      (s.powered 9 = false → ∃ t, exec p.1 s = .next t ∧ (t.ctx x).jobs = c.jobs ∧ (t.course k) = (s.course k) ∧
        (t.ctx x).done = c.done ++ [⟨s.nut, true, 2, false, BitVec.ofNat 12 f.imm.toNat, 0, false, false, false, 0, 0⟩])) ∧
  (∀ (s : State) (c : CourseId) (j : Job) (js : List Job), (s.course c).jobs = j :: js →
    ((∃ l : Fin 8, ((s.course c).lanes.get l).job = none ∧ s.rBit (Reg.crsLane c) (8 + l.val) = false) →
      ∃ (t : State) (l : Fin 8), exec (.laneJobStart c) s = .next t ∧ ((s.course c).lanes.get l).job = none ∧
        s.rBit (Reg.crsLane c) (8 + l.val) = false ∧ (t.course c).lanes.get l = { job := some j, key := s.keyOf j } ∧
        (∀ m, m ≠ l → (t.course c).lanes.get m = (s.course c).lanes.get m) ∧ (t.course c).jobs = js ∧ t.ctxs = s.ctxs) ∧
    ((∀ l : Fin 8, ((s.course c).lanes.get l).job ≠ none ∨ s.rBit (Reg.crsLane c) (8 + l.val) = true) →
      exec (.laneJobStart c) s = .next s)) ∧
  (∀ (s : State) (l : LaneId) (j : Job) (lane : Lane),
    let c : CourseId := ⟨l.val / 8, by omega⟩
    let i : Fin 8 := ⟨l.val % 8, by omega⟩
    (s.course c).lanes.get i = lane → lane.job = some j → (s.ctx j.x).item = j.item → courseOf j.x = c →
    let off := (j.blk.getD 4 0).toNat % 2048
    let n := (j.blk.getD 5 0).toNat % 4096
    let out := (j.blk.getD 6 0).toNat % 2048
    let tl := (j.blk.getD 7 0).toNat % 64
    let ended := fun (t : State) (st : Nat) => exec (.cryptoComplete l) s = .next t ∧ (t.course c).lanes.get i = Lane.cold ∧
      (t.ctx j.x).jobs = (s.ctx j.x).jobs - 1 ∧ (t.course c).jobs = (s.course c).jobs ∧
      (t.ctx j.x).done = (s.ctx j.x).done ++ [⟨s.nut, true, st, false, BitVec.ofNat 12 j.imm.toNat, 0, false, false, false, 0, 0⟩]
    (2048 < off + n → ∃ t, ended t 3 ∧ (t.course c).buf = (s.course c).buf) ∧
    (j.op = 2 → 1 ≤ tl → tl ≤ 16 → off + n ≤ 2048 → out + tl ≤ 2048 →
      (lane.key = none → ∃ t, ended t 2 ∧ (t.course c).buf = (s.course c).buf) ∧
      (∀ (key : SlotKey) (msg : List Byte), lane.key = some key → msg.length = n →
        (∀ a m, s.badByte c a m = none) →
        (∀ a, a < n → (s.course c).buf.read? ((j.pw.toNat + off + a) % 1048576) = msg[a]?) →
        let tag := (cmacOf (roundKeys key.bytes) msg).take tl
        (j.mode.getLsbD 0 = false → ∃ t, ended t 0 ∧ (t.course c).buf = (s.course c).buf.writes (j.pw.toNat + out) tag) ∧
        (j.mode.getLsbD 0 = true → ∀ held : List Byte, held.length = tl →
          (∀ a, a < tl → (s.course c).buf.read? ((j.pw.toNat + out + a) % 1048576) = held[a]?) →
          ∃ t, ended t (if held = tag then 0 else 1) ∧ (t.course c).buf = (s.course c).buf))))

/-! ### Faults, replicas and counters -/

/-- From `s` to `t` a fault sets its bit of IRQ_FAULT, and its error record is due at the end of the tick (R448, R449, R456, R458). -/
def Sys2Proof.Machine.State.recorded (s t : State) (code action unit index : Nat) (d1 d2 : Word) (bit : Nat) : Prop :=
  t.rBit Reg.irqFault bit = true ∧
  t.irq.due = s.irq.due ++ [{ code := code, action := action, unit := unit, index := index, d1 := d1, d2 := d2 }]

/-- R449, R456, R457: at the end of a tick its records are written in the order of code, then unit index: NUT, KIND, ACTION, UNIT and INDEX,
GAP after a loss with the index of the next, and the details, at the ring's tail; with no room the loss is counted and shown. -/
def Sys2Proof.Machine.RecordsWritten : Prop :=
  ∀ (s : State) (e : ErrRec), e.code < 64 → e.action < 4 → e.unit < 16 →
    let wr := s.rFld Reg.irqErrWr 0 16
    let room := (wr + 65536 - s.rFld Reg.irqErrRd 0 16) % 65536 < 32
    let a := 0x1800 + 64 * (wr % 32)
    (s.irq.due = [e] →
      (room → s.flushErrs.rFld Reg.irqErrWr 0 16 = (wr + 1) % 65536 ∧ s.flushErrs.regN a 4 = s.nut.toNat ∧
        s.flushErrs.reg (a + 16) = BitVec.ofNat 20 (e.code * 16384 + e.action * 4096 + e.unit * 256 + e.index % 256) ∧
        s.flushErrs.reg (a + 20) = BitVec.ofNat 20 ((if s.irq.lost = 0 then 0 else 524288) + (wr + 1) % 65536) ∧
        s.flushErrs.reg (a + 24) = e.d1 ∧ s.flushErrs.reg (a + 28) = e.d2 ∧ s.flushErrs.irq.lost = 0) ∧
      (¬ room → s.flushErrs.reg Reg.irqErrLost = satAdd (s.reg Reg.irqErrLost) 1 ∧ s.flushErrs.rBit Reg.irqFault 11 = true ∧
        s.flushErrs.irq.lost = s.irq.lost + 1 ∧ s.flushErrs.rFld Reg.irqErrWr 0 16 = wr) ∧
      s.flushErrs.irq.due = []) ∧
    (∀ f, s.irq.due = [e, f] →
      s.errOrder = (if f.code < e.code ∨ (f.code = e.code ∧ f.index < e.index) then [f, e] else [e, f]))

/-- The context fault of an instruction that changes nothing (R329): its code and PC, the count, the cause, and the work item's end. -/
def Sys2Proof.Machine.State.faults (s : State) (i : Instr) (x : CtxId) (code : Nat) : Prop :=
  let c := courseOf x
  ∃ t, exec i s = .next t ∧
    t.reg (Reg.strCtxFault (strOf x) (x.val % 8)) = BitVec.ofNat 20 (code * 65536 + (s.ctx x).pc.toNat) ∧
    t.reg (Reg.crsCtxFaults c) = satAdd (s.reg (Reg.crsCtxFaults c)) 1 ∧ t.rBit (Reg.crsCause c) 17 = true ∧
    (t.ctx x).mode = (if s.rBit (Reg.strCtl (strOf x)) 18 then .halted else .idle) ∧ (t.ctx x).item = (s.ctx x).item + 1 ∧
    (∀ r, (t.ctx x).r r = (s.ctx x).r r) ∧ (∀ y, y ≠ x → t.ctx y = s.ctx y) ∧ t.tunings = s.tunings ∧ t.plucks = s.plucks ∧
    t.client = s.client ∧ ∀ k, (t.course k).data = (s.course k).data ∧ (t.course k).buf = (s.course k).buf

/-- R133, R311, R314, R315, R326, R328 to R331, R340, R341, R343, R350, R354, R357, R362: context faults. A bad WID, a misaligned chord, a table
instruction with BSEL 1 or 2, a float60 instruction but FSCL with BSEL 1, or a plain SEND with MODE[1:0] = 3 is ILLEGAL (1); a user context's
TCMT, and its arm of anything but START_CTX, PRIV (2); a packet field beyond the window, or PW set to another's slot, MEM (3); a ninth
call and a return from an empty stack STACK (4); a damaged program word ECC_PT (5), a damaged data word ECC_DATA (6); and an issue
beyond CRS_RUNAWAY stops the context until its RUNAWAY fault (7).
Where the spec leaves a reading open it is the model's: notes/assumptions, entries 32, 136. -/
def Obligations.ContextFaults : Prop :=
  (∀ (s : State) (x : CtxId) (f : Fields), s.ready x f →
    let c := s.ctx x
    let k := courseOf x
    (f.w ≠ 1 → s.faults (.nop x f) x 1 ∧ s.faults (.br x f) x 1 ∧ s.faults (.yield x f) x 1) ∧
    ((f.w = 0 ∨ 5 < f.w ∨ chordOk f.srca f.w = false ∨ chordOk f.dst f.w = false ∨ (f.sel = 0 ∧ chordOk f.srcb f.w = false)) →
      s.faults (.add x f) x 1) ∧
    (f.w = 1 → f.srca.toNat % 16 = 0 → c.sys = false → s.faults (.tcmtFull x f) x 2 ∧
      (bitOf f.imm 8 = false → fld (c.r f.srca.toNat) 16 4 ≠ 1 → s.faults (.armpArm x f) x 2)) ∧
    (f.w = 1 → f.mode.getLsbD 0 = true → f.imm.toNat % 512 < s.rFld (Reg.crsBufCfg k) 0 9 → c.slot ≠ some (f.imm.toNat % 512) →
      s.faults (.setpw x f) x 3) ∧
    (f.w = 1 → f.mode.getLsbD 0 = false → f.imm.toNat % 64 < 20 → 16384 < f.imm.toNat / 64 + f.imm.toNat % 64 + 1 →
      s.faults (.ldf x f) x 3 ∧ s.faults (.stf x f) x 3) ∧
    ((f.sel = 1 ∨ f.sel = 2) → s.faults (.tlkp x f) x 1 ∧ s.faults (.tins x f) x 1 ∧ s.faults (.tupd x f) x 1 ∧ s.faults (.tdel x f) x 1 ∧
      s.faults (.tage x f) x 1) ∧
    (f.sel = 1 → ∀ i ∈ [Instr.fadd x f, .fsub x f, .fmul x f, .fdiv x f, .fsqrt x f, .fcmp x f, .fabs x f, .fneg x f, .fcvti x f,
      .fcvtf x f], s.faults i x 1) ∧
    (f.mode.toNat % 4 = 3 → s.faults (.sendPlain x f) x 1) ∧
    (f.w = 1 → 8 ≤ c.stack.length → s.faults (.call x f) x 4) ∧
    (f.w = 1 → c.stack = [] → s.faults (.ret x f) x 4) ∧
    (f.w = 1 → f.sel = 3 → (s.badData k (((c.r f.srcb.toNat).toNat + f.imm.toNat % 2 ^ 19)) 1).isSome = true → s.faults (.mov x f) x 6)) ∧
  (∀ (s : State) (x : CtxId) (f : Fields), s.canIssue x = true → (s.ctx x).issued < (s.reg (Reg.crsRunaway (courseOf x))).toNat →
    s.badFetch x = true → s.faults (.nop x f) x 5) ∧
  (∀ (s : State) (x : CtxId) (f : Fields), s.canIssue x = true → (s.ctx x).issued = (s.reg (Reg.crsRunaway (courseOf x))).toNat →
    ∃ t, exec (.nop x f) s = .next t ∧ t = s.onCtx x (fun c => { c with issued := c.issued + 1 }) ∧ t.faults (.runawayFault x) x 7) ∧
  (∀ (s : State) (x : CtxId), (s.ctx x).issued ≤ (s.reg (Reg.crsRunaway (courseOf x))).toNat → exec (.runawayFault x) s = .next s)

/-- The state after a string's fault (R332): fenced with its code and cause, and every context of it IDLE. -/
def Sys2Proof.Machine.State.strFaulted (s t : State) (st : StrId) (code : Nat) : Prop :=
  t.rBit (Reg.strStat st) 19 = true ∧ t.rFld (Reg.strStat st) 15 4 = code ∧ t.rBit (Reg.crsCause (strCourse st)) 16 = true ∧
  (∀ x, strOf x = st → (t.ctx x).mode = .idle) ∧ (∀ x, strOf x ≠ st → t.ctx x = s.ctx x)

/-- A counter after one more event (R420). -/
def Sys2Proof.Machine.Counter.up (c : Counter) : Counter :=
  { val := c.val + 1, ovf := c.ovf || decide (c.val.toNat = 2 ^ 60 - 1) }

/-- R306, R331 to R333, R448 to R450, R454, R456 to R459: string faults, restarts, crypto lanes and the scrubber. A string with a context in RUN
that has issued nothing for STR_WDOG ticks takes WATCHDOG (8); a detected error ECC_STR (9) or STATE (10); each has its record, written at the end of the tick. A
restart clears the string's registers and returns it. A lane's fault fences it and puts its job ahead of every waiting one; RESTART
returns the lane. The scrubber records a damaged word and leaves it; one it corrects is counted.
Where the spec leaves a reading open it is the model's: notes/assumptions, entries 34, 56, 163. -/
def Obligations.UnitFaults : Prop :=
  Sys2Proof.Machine.RecordsWritten ∧
  (∀ (s : State) (st : StrId), s.rBit (Reg.strStat st) 19 = false → s.powered (1 + (strCourse st).val) = true →
    let pc := BitVec.ofNat 20 (s.lastPc.get st).toNat
    (∀ x, strOf x = st → (s.ctx x).mode = .run → reached s.nut (s.quiet.get st + BitVec.ofNat 80 (s.rFld (Reg.strWdog st) 0 17 * 163840)) = true →
      ∃ t, exec (.watchdogExpiry st) s = .next t ∧ s.strFaulted t st 8 ∧ s.recorded t 8 2 2 st.val pc (BitVec.ofNat 20 (s.runMask st)) 19) ∧
    ((∀ x, strOf x = st → (s.ctx x).mode ≠ .run) → exec (.watchdogExpiry st) s = .next s) ∧
    (∀ (m : BitVec 4) (a : BitVec 22),
      (∃ t, exec (.hardwareFaultDetect st true m a) s = .next t ∧ s.strFaulted t st 10 ∧
        s.recorded t 10 2 2 st.val pc (BitVec.ofNat 20 (s.runMask st)) 19) ∧
      (∃ t, exec (.hardwareFaultDetect st false m a) s = .next t ∧ s.strFaulted t st 9 ∧
        s.recorded t 9 2 2 st.val (BitVec.ofNat 20 (m.toNat * 65536 + a.toNat / 2 ^ 20)) (BitVec.ofNat 20 a.toNat) 19))) ∧
  (∀ (s : State) (st : StrId), s.hostOpen (Reg.strCtl st) = true → ∃ t, exec (.stringRestart st) s = .next t ∧
    t.rBit (Reg.strStat st) 19 = false ∧ t.rFld (Reg.strStat st) 15 4 = 0 ∧
    (∀ x, strOf x = st → (t.ctx x).mode = .idle ∧ (t.ctx x).stack = [] ∧ ∀ i, (t.ctx x).r i = 0) ∧
    (∀ x, strOf x ≠ st → t.ctx x = s.ctx x)) ∧
  (∀ (s : State) (x : CtxId), s.hostOpen (Reg.strCtxCmd (strOf x) (x.val % 8)) = true →
    ((s.ctx x).mode = .halted → ∃ t, exec (.contextRestart x) s = .next t ∧ t.ctx x = { s.ctx x with mode := .idle } ∧
      (∀ y, y ≠ x → t.ctx y = s.ctx y) ∧ t = { s with ctxs := t.ctxs }) ∧
    ((s.ctx x).mode ≠ .halted → exec (.contextRestart x) s = .next s)) ∧
  (∀ (s : State) (l : LaneId) (round : Bool),
    let c : CourseId := ⟨l.val / 8, by omega⟩
    let i : Fin 8 := ⟨l.val % 8, by omega⟩
    let job := ((s.course c).lanes.get i).job
    s.powered 9 = true → s.rBit (Reg.crsLane c) (8 + i.val) = false → ∃ t, exec (.laneFault l round) s = .next t ∧
      t.rBit (Reg.crsLane c) (8 + i.val) = true ∧ (t.course c).jobs = job.toList ++ (s.course c).jobs ∧
      ((t.course c).lanes.get i).job = none ∧ (∀ j, j ≠ i → (t.course c).lanes.get j = (s.course c).lanes.get j) ∧ t.ctxs = s.ctxs ∧
      s.recorded t 11 2 9 l.val (if round then 1 else 0) (match job with | some j => BitVec.ofNat 20 (j.imm.toNat % 4096) | none => 0) 17) ∧
  (∀ (s : State) (c : CourseId) (v : Word), s.hostOpen (Reg.crsLane c) = true → ∃ t, exec (.laneRestart c v) s = .next t ∧
    (∀ i, i < 8 → (t.rBit (Reg.crsLane c) (8 + i) = true ↔ s.rBit (Reg.crsLane c) (8 + i) = true ∧ bitOf v i = false)) ∧
    s.onlyRegs t [Reg.crsLane c]) ∧
  (∀ (s : State) (unit : Byte) (a : BitVec 22),
    (∃ t, exec (.scrubError { kind := .dataSram, fixed := false } unit a) s = .next t ∧
      s.recorded t 16 0 1 unit.toNat (BitVec.ofNat 20 (0x10000 + a.toNat / 2 ^ 20)) (BitVec.ofNat 20 a.toNat) 12 ∧
      (MemKind.dataSram, unit.toNat, a.toNat) ∈ t.bad ∧ t.courses = s.courses) ∧
    (∀ c : CourseId, unit.toNat = c.val → s.powered (1 + c.val) = true →
      ∃ t, exec (.scrubError { kind := .dataSram, fixed := true } unit a) s = .next t ∧ t = { s with counters := t.counters } ∧
        ∀ k : Fin 4, t.cnt (Cnt.crs c k) = if fld (s.selWord (Reg.pmcCrsSel c k)) 15 5 = 12 then (s.cnt (Cnt.crs c k)).up
          else s.cnt (Cnt.crs c k)))

/-- From `s` to `t` a write of counter register `a` that clears `cs` is offered to the time island (R431, R462): the register reads `v` at
once; the counters, and which events they count, stand until its effect tick; behind a write that crosses, the newest waits. -/
def Sys2Proof.Machine.State.counterWrite (s t : State) (a : Nat) (cs : List Nat) (v : Word) : Prop :=
  (Sparse.find s.cntReq a = none → s.isVoid 49 = false →
    Sparse.find t.cntReq a = some { cnts := cs, old := s.reg a, val := v, at_ := some s.nut, next := none } ∧
    t.flight = s.flight ++ [(49, .cnt a)]) ∧
  (∀ q, Sparse.find s.cntReq a = some q → q.at_ ≠ none →
    Sparse.find t.cntReq a = some { q with next := some v } ∧ t.flight = s.flight) ∧
  ((∀ q, Sparse.find s.cntReq a = some q → q.at_ ≠ none) → t.selWord a = s.selWord a) ∧
  t.reg a = v ∧ s.regsBut t [a] ∧ t = { s with cntReq := t.cntReq, flight := t.flight, regs := t.regs, setNow := t.setNow }

/-- R32 to R34, R39, R420, R423, R424, R431, R439, R449, R451, R453: selects, speed windows and the nut check. A select that is no reserved
event, and CLR, cross to the time island; at the end of a write's effect tick its counters are 0 and the select counts from there. A
reserved select is refused. A speed window's end shows its rate, LOW and SEQ, and LOW's rise with
IRQ_EN sets its cause; a write of the configuration starts the window anew. On a check tick a replica whose check word differs is noted,
counted, recorded and fenced; the next check loads it; the one after, passed, returns it to service. 15 failures are NUT_MASTER.
Where the spec leaves a reading open it is the model's: notes/assumptions, entries 53, 107. -/
def Obligations.CountersAndChecks : Prop :=
  (∀ (s : State) (st : StrId) (k : Fin 8) (v : Word), s.hostOpen (Reg.pmcStrSel st k) = true →
    (fld v 15 5 < 16 → ∃ t, exec (.counterSelectWrite (.str st k) v) s = .next t ∧
      s.counterWrite t (Reg.pmcStrSel st k) [Cnt.str st (2 + k)] (v &&& 0xF8000)) ∧
    (16 ≤ fld v 15 5 → ∃ t, exec (.counterSelectWrite (.str st k) v) s = .next t ∧ t.rBit (Reg.strStat st) 14 = true ∧
      s.onlyRegs t [Reg.strStat st])) ∧
  (∀ (s : State) (c : CourseId) (k : Fin 4) (v : Word), s.hostOpen (Reg.pmcCrsSel c k) = true →
    (fld v 15 5 < 14 → ∃ t, exec (.counterSelectWrite (.crs c k) v) s = .next t ∧
      s.counterWrite t (Reg.pmcCrsSel c k) [Cnt.crs c k] (v &&& 0xFF800)) ∧
    (14 ≤ fld v 15 5 → ∃ t, exec (.counterSelectWrite (.crs c k) v) s = .next t ∧ t.rBit (Reg.crsRun c) 13 = true ∧
      s.onlyRegs t [Reg.crsRun c])) ∧
  (∀ (s : State) (st : StrId), s.hostOpen (Reg.pmcStrCtl st) = true → ∃ t, exec (.strCounterClr st) s = .next t ∧
    s.counterWrite t (Reg.pmcStrCtl st) [Cnt.str st 0, Cnt.str st 1] (s.reg (Reg.pmcStrCtl st))) ∧
  (∀ (s : State) (a : Nat) (q : CntReq) (n : Nut), s.cntReq = [(a, q)] → q.at_ = some n →
    (n = s.nut → ∀ c, s.cntEndTick.cnt c = s.cnt c) ∧
    (n ≠ s.nut → (∀ c, s.cntEndTick.cnt c = if q.cnts.contains c then Counter.zero else s.cnt c) ∧
      (q.next = none → s.cntEndTick.cntReq = [] ∧ s.cntEndTick.selWord a = s.reg a) ∧
      (∀ v, q.next = some v → s.cntEndTick.cntReq = [(a, { q with old := q.val, val := v, at_ := some s.nut, next := none })]))) ∧
  (∀ (s : State) (c : CourseId) (mips : BitVec 12), s.powered (1 + c.val) = true →
    reached s.nut (s.speedAt.get c + BitVec.ofNat 80 (65536000 * 2 ^ s.rFld (Reg.crsSpeedCfg c) 16 4)) = true →
    let low := decide (mips.toNat < s.rFld (Reg.crsSpeedCfg c) 0 12)
    ∃ t, exec (.speedWindowEnd c mips) s = .next t ∧ t.rFld (Reg.crsSpeed c) 0 12 = mips.toNat ∧ t.rBit (Reg.crsSpeed c) 19 = true ∧
      t.rBit (Reg.crsSpeed c) 18 = low ∧ t.rFld (Reg.crsSpeed c) 12 6 = (s.rFld (Reg.crsSpeed c) 12 6 + 1) % 64 ∧
      t.rBit (Reg.crsCause c) 19 = (s.rBit (Reg.crsCause c) 19 || (s.rBit (Reg.crsSpeedCfg c) 15 && low && !s.rBit (Reg.crsSpeed c) 18)) ∧
      t.speedAt.get c = s.nut ∧ s.regsBut t [Reg.crsSpeed c, Reg.crsCause c]) ∧
  (∀ (s : State) (c : CourseId) (v : Word), s.hostOpen (Reg.crsSpeedCfg c) = true → ∃ t, exec (.speedCfgWrite c v) s = .next t ∧
    t.reg (Reg.crsSpeedCfg c) = v &&& 0xF8FFF ∧ t.speedAt.get c = s.nut ∧ s.regsBut t [Reg.crsSpeedCfg c] ∧
    t = { s with regs := t.regs, setNow := t.setNow, speedAt := t.speedAt }) ∧
  (∀ (s : State) (p : PortId), s.nutRun = true → s.nut.toNat % 65536000 = 0 → s.rBit Reg.irqFault 15 = false →
    let i : ReplicaId := ⟨4 + p.val, by omega⟩
    (∀ j, j ≠ i → s.replicas.get j = Replica.cold) →
    ((s.replicas.get i).fence = .service → (s.replicas.get i).fails = [] → checkOf (s.nut + (s.replicas.get i).dev) ≠ checkOf s.nut →
      ∃ t, exec (.checkTick []) s = .next t ∧ (t.replicas.get i).fence = .fenced ∧
        t.rBit (if p.val < 20 then Reg.nutChkFreta else Reg.nutChkFretb) (if p.val < 20 then p.val else p.val - 20) = true ∧
        t.reg Reg.nutChkCnt = satAdd (s.reg Reg.nutChkCnt) 1 ∧
        s.recorded t 12 2 3 p.val (checkOf (s.nut + (s.replicas.get i).dev)) (checkOf s.nut) 16 ∧
        ∀ j, j ≠ i → t.replicas.get j = s.replicas.get j) ∧
    ((s.replicas.get i).fence = .fenced → ∃ t, exec (.checkTick []) s = .next t ∧ (t.replicas.get i).fence = .reloaded ∧
      (t.replicas.get i).dev = 0 ∧ t = { s with replicas := t.replicas }) ∧
    ((s.replicas.get i).fence = .reloaded → (s.replicas.get i).dev = 0 → ∃ t, exec (.checkTick []) s = .next t ∧
      (t.replicas.get i).fence = .service ∧ t = { s with replicas := t.replicas })) ∧
  (∀ s : State, s.nutRun = true → s.nut.toNat % 65536000 = 0 → s.rBit Reg.irqFault 15 = false → 15 ≤ s.failing.length →
    ∃ t, exec (.checkTick []) s = .next t ∧ t.rBit Reg.irqFault 15 = true ∧ t.replicas = s.replicas)

/-! ### The host's accesses and the loader -/

/-- The single-word registers whose writes have no effect beside their own bits, of the blocks of the register map: masks, causes, ring
indices and plain settings. -/
def Sys2Proof.Machine.plainRegs : List Nat :=
  [Reg.irqSummaryMask, Reg.irqFault, Reg.irqFaultMask, Reg.irqErrRd, Reg.devHostCause, Reg.devHostCauseMask, Reg.cfgCause, Reg.cfgCauseMask,
   Reg.dmpCause, Reg.dmpCauseMask, Reg.dmpRd, Reg.brgCause, Reg.crsCause 0, Reg.crsCause 3, Reg.crsHostStart 1, Reg.crsHostArg 2]

/-- R13, R15, R490, R504 to R507: slot accesses to BAR0. A DW without all its byte enables is discarded with BAD_ACCESS; an address with no register
takes nothing; a write sets rw bits and clears rc1 bits written 1 that hardware did not set on this very tick, and no others. A word below the highest of a multi-word register
goes to its write shadow; the highest commits the whole value. A read of word 0 of one that no capture serves latches every word. While a
cold boot keeps a slot shut its write, whole or not, is dropped and counted. -/
def Sys2Proof.Machine.SlotAccessesRule : Prop :=
  ∀ (s : State) (addr : Nat), bar0Slot addr = true →
    let a := s.hostAddr addr
    (∀ v, (s.hostUp = true → s.coldBooting = false ∨ s.hostOpen a = true → ∃ t, exec (.registerWrite addr v false) s = .next t ∧
        t.rBit Reg.devHostCause 16 = true ∧ s.onlyRegs t [Reg.devHostCause]) ∧
      (s.hostUp = false → exec (.registerWrite addr v false) s = .next s)) ∧
    (∀ v, s.hostOpen a = true → s.holding = false → regAt a = none → exec (.registerWrite addr v true) s = .next s) ∧
    (∀ v, s.hostOpen a = true → s.holding = false → a ∈ plainRegs → ∃ t, exec (.registerWrite addr v true) s = .next t ∧
      t.reg a = (((s.reg a &&& ~~~(v &&& ~~~(Sparse.find s.setNow a).getD 0 &&& regRc1Mask a)) &&& ~~~(regRwMask a)) |||
        (v &&& regRwMask a)) ∧ s.onlyRegs t [a]) ∧
    (∀ (v : Word) (r : RegRow) (w : Nat), s.hostOpen a = true → s.holding = false → regAt a = some (r, w) → 2 ≤ r.words → r.rw ≠ 0 →
      s.wordsShut (a - 4 * w) = none → w < r.words → 4 * w ≤ a →
      (w + 1 < r.words → ∃ t, exec (.registerWrite addr v true) s = .next t ∧
        (Sparse.find t.wrShadow a).getD 0 = v &&& BitVec.ofNat 20 r.rw ∧ t = { s with wrShadow := t.wrShadow } ∧
        ∀ b, b ≠ a → (Sparse.find t.wrShadow b).getD 0 = (Sparse.find s.wrShadow b).getD 0) ∧
      (w + 1 = r.words → a - 4 * w ≠ Reg.harpSreq → (a - 4 * w < 0x8300 ∨ 0x8380 ≤ a - 4 * w) →
        ∃ t, exec (.multiwordCommit addr v) s = .next t ∧ t.reg a = v &&& BitVec.ofNat 20 r.top ∧
          (∀ i, i < w → t.reg (a - 4 * w + 4 * i) = (Sparse.find s.wrShadow (a - 4 * w + 4 * i)).getD 0) ∧
          t = { s with regs := t.regs, setNow := t.setNow, wrShadow := t.wrShadow } ∧ s.regsBut t (wordsAt (a - 4 * w) r.words))) ∧
    (∀ r : RegRow, regAt a = some (r, 0) → 2 ≤ r.words → s.hostReads a = true → captureOf a = none → a ≠ Reg.harpSi →
      ∃ t, exec (.multiwordLatch addr) s = .next t ∧
        (∀ i, i < r.words → (Sparse.find t.rdShadow (a + 4 * i)).getD 0 = s.readWord (a + 4 * i)) ∧ t = { s with rdShadow := t.rdShadow }) ∧
    (∀ v full, s.hostUp = true → s.coldBooting = true → s.hostOpen a = false → ∃ t, exec (.registerWrite addr v full) s = .next t ∧
      t.reg Reg.cfgHostdrop = satAdd (s.reg Reg.cfgHostdrop) 1 ∧ t.rBit Reg.cfgCause 15 = true ∧
      (full = false → t.rBit Reg.devHostCause 16 = true) ∧
      s.onlyRegs t (if full then [Reg.cfgHostdrop, Reg.cfgCause] else [Reg.cfgHostdrop, Reg.cfgCause, Reg.devHostCause]))

/-- R334, R336, R364, R474, R490, R504, R510: the windows of BAR2, with the host up and no boot or warm reset. A whole DW stores its word in a course's data
SRAM, in its program table unless the course runs, which refuses it, or in the client table; the enabled bytes of a DW reach the packet buffer; a
word window takes no partial DW, and a window whose domain is off discards the write with OFF_ACCESS. -/
def Sys2Proof.Machine.MemoryWindowsRule : Prop :=
  ∀ (s : State) (c : CourseId) (v : BitVec 32), s.hostUp = true → s.coldBooting = false → s.rBit Reg.pwrStat 18 = false →
    let w := v.setWidth 20
    let others := fun (t : State) => (∀ k, k ≠ c → t.course k = s.course k)
    (s.powered (1 + c.val) = true →
      (∀ i, i < 524288 → ∃ t, exec (.bar2Write (0x400000 + c.val * 0x200000 + 4 * i) v 15) s = .next t ∧
        (t.course c).data.read? i = some w ∧ (∀ j, j ≠ i → (t.course c).data.read? j = (s.course c).data.read? j) ∧ others t ∧
        t = { s with courses := t.courses, bad := t.bad }) ∧
      (∀ i, i < 98304 → s.crsState c ≠ CS.run → s.crsState c ≠ CS.draining →
        ∃ t, exec (.bar2Write (c.val * 0x100000 + 4 * i) v 15) s = .next t ∧ (t.course c).prog.read? i = some w ∧
        (∀ j, j ≠ i → (t.course c).prog.read? j = (s.course c).prog.read? j) ∧ others t ∧
        t = { s with courses := t.courses, bad := t.bad }) ∧
      (∀ i, i < 98304 → (s.crsState c = CS.run ∨ s.crsState c = CS.draining) →
        ∃ t, exec (.bar2Write (c.val * 0x100000 + 4 * i) v 15) s = .next t ∧ t.rBit (Reg.crsRun c) 14 = true ∧
        s.onlyRegs t [Reg.crsRun c]) ∧
      (∀ (i : Nat) (be : BitVec 4), i < 262144 → ∃ t, exec (.bar2Write (0xC00000 + c.val * 0x100000 + 4 * i) v be) s = .next t ∧
        (∀ j, j < 4 → be.getLsbD j = true → (t.course c).buf.read? (4 * i + j) = some (BitVec.ofNat 8 (v.toNat / 2 ^ (8 * j)))) ∧
        (∀ a, (a < 4 * i ∨ 4 * i + 4 ≤ a ∨ be.getLsbD (a - 4 * i) = false) → (t.course c).buf.read? a = (s.course c).buf.read? a) ∧
        others t ∧ t = { s with courses := t.courses, bad := t.bad })) ∧
    (s.powered (1 + c.val) = false → ∀ be i, i < 524288 →
      ∃ t, exec (.bar2Write (0x400000 + c.val * 0x200000 + 4 * i) v be) s = .next t ∧ t.rBit Reg.devHostCause 17 = true ∧
        s.onlyRegs t [Reg.devHostCause]) ∧
    (∀ i, i < 4194304 → ∃ t, exec (.bar2Write (0x1400000 + 4 * i) v 15) s = .next t ∧ t.client.read? i = some w ∧
      (∀ j, j ≠ i → t.client.read? j = s.client.read? j) ∧ t = { s with client := t.client, bad := t.bad }) ∧
    (∀ be i, i < 4194304 → be ≠ 15 → ∃ t, exec (.bar2Write (0x1400000 + 4 * i) v be) s = .next t ∧ t.rBit Reg.devHostCause 16 = true ∧
      s.onlyRegs t [Reg.devHostCause])

/-- R482 to R487, R493 to R495: the loader while the device runs. GO with COURSE = c, in ROM or DRAINED, starts a load; with a boot, a load or the SPI engine busy it
ends at once with RESULT 6, in another state with 3. At its end an image that R486 refuses gives RESULT 2 and REASON and leaves the course
as it was; an accepted one of one PROGRAM or DATA section for the course writes its words, sets LEVEL and the version, and leaves the
course in DRAINED with RESULT 1. An SPI command is refused while the loader or the engine is busy; its end has filled the buffer.
Where the spec leaves a reading open it is the model's: notes/assumptions, entries 13, 14. -/
def Obligations.Loader : Prop :=
  (∀ (s : State) (v : Word) (flash : List Byte), s.hostOpen Reg.cfgLoad = true → bitOf v 19 = true →
    let c : CourseId := Fin.ofNat 4 (fld v 16 2)
    let busy := s.rBit Reg.cfgStat 19 = true ∨ s.rBit Reg.cfgLoad 12 = true ∨ s.rBit Reg.cfgSpiCmd 18 = true
    let idle := s.crsState c = CS.rom ∨ s.crsState c = CS.drained
    let answers := fun (r : Nat) => ∃ t, exec (.courseLoad v flash) s = .next t ∧ t.rFld Reg.cfgLoad 13 3 = r ∧
      t.rBit Reg.cfgCause 17 = true ∧ s.onlyRegs t [Reg.cfgLoad, Reg.cfgCause]
    (busy → answers 6) ∧ (¬ busy → ¬ idle → answers 3) ∧
    (¬ busy → idle → ∃ t, exec (.courseLoad v flash) s = .next t ∧ t.rBit Reg.cfgLoad 12 = true ∧
      t.load = some { course := c, guard := bitOf v 18, flash := flash } ∧ t = { s with regs := t.regs, setNow := t.setNow, load := t.load } ∧
      s.regsBut t [Reg.cfgLoad])) ∧
  (∀ (s : State) (j : LoadJob), s.load = some j →
    let c := j.course
    let h := imageHeader (imageWords j.flash)
    let ended := fun (t : State) (r : Nat) => exec .courseLoadDone s = .next t ∧ t.rFld Reg.cfgLoad 13 3 = r ∧
      t.rBit Reg.cfgLoad 12 = false ∧ t.rBit Reg.cfgCause 17 = true ∧ t.load = none ∧ t.rFld Reg.cfgStat 11 3 = imageReason j.flash
    (imageReason j.flash ≠ 0 → ∃ t, ended t 2 ∧ t.courses = s.courses ∧ t.crsState c = s.crsState c ∧ t.plucks = s.plucks) ∧
    (imageReason j.flash = 0 → j.guard = true → (s.crsState c = CS.drained ∨ ∃ k : CourseId, s.crsState k = CS.run) → s.highLevel + 1 < h.compat →
      ∃ t, ended t 4 ∧ t.courses = s.courses ∧ t.plucks = s.plucks) ∧
    (∀ x : ImageSection, imageReason j.flash = 0 → j.guard = false → acceptedSections j.flash = [x] → x.target = c.val →
      (x.type = 2 ∨ x.type = 3) → s.powered (1 + c.val) = true → ∃ t, ended t 1 ∧ t.crsState c = CS.drained ∧
        t.rFld (Reg.crsCompat c) 0 8 = h.compat ∧ t.regN (Reg.cfgCrsVer c) 2 = h.ver ∧
        (∀ i w, x.items[i]? = some w → (x.type = 2 → (t.course c).prog.read? (3 * x.start + i) = some w) ∧
          (x.type = 3 → (t.course c).data.read? (x.start + i) = some w)) ∧
        (∀ g : PluckId, g.val / 64 = c.val → t.rBit (Reg.plkStat g) 19 = false) ∧
        ∀ k, k ≠ c → t.course k = s.course k)) ∧
  (∀ (s : State) (v : Word), s.hostOpen Reg.cfgSpiCmd = true → bitOf v 19 = true →
    let busy := s.rBit Reg.cfgStat 19 = true ∨ s.rBit Reg.cfgLoad 12 = true ∨ s.rBit Reg.cfgSpiCmd 18 = true
    (busy → ∃ t, exec (.spiCommand v) s = .next t ∧ t.rBit Reg.cfgStat 10 = true ∧ s.onlyRegs t [Reg.cfgStat]) ∧
    (¬ busy → ∃ t, exec (.spiCommand v) s = .next t ∧ t.rBit Reg.cfgSpiCmd 18 = true ∧ t.spi = some (bitOf v 17, s.rFld Reg.cfgSpiLen 0 9) ∧
      t.rFld Reg.cfgSpiCmd 12 6 = fld v 12 6 ∧ t.rFld Reg.cfgSpiCmd 0 8 = fld v 0 8 ∧ s.regsBut t [Reg.cfgSpiCmd] ∧
      t = { s with regs := t.regs, setNow := t.setNow, spi := t.spi })) ∧
  (∀ (s : State) (n : Nat) (data : List Byte), n ≤ 256 → data.length = n →
    (s.spi = some (false, n) → ∃ t, exec (.spiCommandDone data) s = .next t ∧ t.rBit Reg.cfgSpiCmd 18 = false ∧ t.spi = none ∧
      ∀ i b, data[i]? = some b → t.reg (Reg.cfgSpiBuf i) = b.setWidth 20) ∧
    (s.spi = some (true, n) → ∃ t, exec (.spiCommandDone data) s = .next t ∧ t.rBit Reg.cfgSpiCmd 18 = false ∧ t.spi = none ∧
      s.regsBut t [Reg.cfgSpiCmd]))


/-- R13, R15, R334, R336, R364, R474, R490, R504 to R507, R510: the host's slot accesses and its writes to the memory windows.
Where the spec leaves a reading open it is the model's: notes/assumptions, entries 12, 22, 24. -/
def Obligations.HostWrites : Prop := Sys2Proof.Machine.SlotAccessesRule ∧ Sys2Proof.Machine.MemoryWindowsRule
end

