-- ==== Sys2Proof/Laws/Sparse.lean ====
section
/-! SUPPORT. Read after write and the canonical form of sparse maps and memories. -/

namespace Sys2Proof.Machine

variable {α : Type}

theorem Sparse.find_erase_self (l : Sparse α) (a : Nat) : Sparse.find (Sparse.erase l a) a = none := by
  induction l with
  | nil => rfl
  | cons e l ih =>
    obtain ⟨b, v⟩ := e
    by_cases h : a = b <;> simp [Sparse.erase, Sparse.find, h] at * <;> simp_all

theorem Sparse.find_erase_ne (l : Sparse α) {a b : Nat} (h : b ≠ a) :
    Sparse.find (Sparse.erase l a) b = Sparse.find l b := by
  induction l with
  | nil => rfl
  | cons e l ih =>
    obtain ⟨c, v⟩ := e
    by_cases hc : a = c
    · subst hc; simp [Sparse.erase, Sparse.find, h, ih]
    · simp only [Sparse.erase, hc, if_false, Sparse.find, ih]

theorem Sparse.find_insert_self (l : Sparse α) (a : Nat) (x : α) : Sparse.find (Sparse.insert l a x) a = some x := by
  induction l with
  | nil => simp [Sparse.insert, Sparse.find]
  | cons e l ih =>
    obtain ⟨c, v⟩ := e
    by_cases hc : a = c
    · simp [Sparse.insert, Sparse.find, hc]
    · by_cases hl : a < c <;> simp [Sparse.insert, Sparse.find, hc, hl, ih]

theorem Sparse.find_insert_ne (l : Sparse α) {a b : Nat} (x : α) (h : b ≠ a) :
    Sparse.find (Sparse.insert l a x) b = Sparse.find l b := by
  induction l with
  | nil => simp [Sparse.insert, Sparse.find, h]
  | cons e l ih =>
    obtain ⟨c, v⟩ := e
    by_cases hc : a = c
    · subst hc; simp [Sparse.insert, Sparse.find, h]
    · by_cases hl : a < c <;> simp [Sparse.insert, Sparse.find, hc, hl, h, ih]

/-- What an address reads as after a write, where an unlisted address reads as `d`. -/
theorem Sparse.find_write [DecidableEq α] (d : Nat → Option α) (l : Sparse α) (a b : Nat) (x : α) :
    ((Sparse.find (Sparse.write d l a x) b).orElse fun _ => d b) =
      if b = a then some x else (Sparse.find l b).orElse fun _ => d b := by
  by_cases h : b = a
  · subst h
    by_cases hd : d b = some x <;> simp [Sparse.write, hd, Sparse.find_erase_self, Sparse.find_insert_self]
  · by_cases hd : d a = some x <;> simp [Sparse.write, hd, h, Sparse.find_erase_ne _ h, Sparse.find_insert_ne _ _ h]

/-! ### The canonical form -/

/-- Every key lies above a bound. -/
def Sparse.above (lo : Option Nat) (l : Sparse α) : Prop := ∀ e ∈ l, ∀ n, lo = some n → n < e.1

theorem Sparse.rising_cons (lo : Option Nat) (b : Nat) (v : α) (l : Sparse α) :
    Sparse.rising lo ((b, v) :: l) = true ↔ (∀ n, lo = some n → n < b) ∧ Sparse.rising (some b) l = true := by
  cases lo <;> simp [Sparse.rising]

theorem Sparse.rising_mono {lo lo' : Option Nat} {l : Sparse α} (h : ∀ n, lo' = some n → ∃ m, lo = some m ∧ n ≤ m)
    (hr : Sparse.rising lo l = true) : Sparse.rising lo' l = true := by
  cases l with
  | nil => cases lo' <;> rfl
  | cons e l =>
    obtain ⟨b, v⟩ := e
    rw [Sparse.rising_cons] at hr ⊢
    refine ⟨fun n hn => ?_, hr.2⟩
    obtain ⟨m, hm, hle⟩ := h n hn
    have := hr.1 m hm
    omega

theorem Sparse.rising_erase (l : Sparse α) (a : Nat) (lo : Option Nat) (h : Sparse.rising lo l = true) :
    Sparse.rising lo (Sparse.erase l a) = true := by
  induction l generalizing lo with
  | nil => cases lo <;> rfl
  | cons e l ih =>
    obtain ⟨b, v⟩ := e
    rw [Sparse.rising_cons] at h
    by_cases hb : a = b
    · simp only [Sparse.erase, hb, if_true]
      subst hb
      exact ih lo (Sparse.rising_mono (fun n hn => ⟨a, rfl, Nat.le_of_lt (h.1 n hn)⟩) h.2)
    · simp only [Sparse.erase, hb, if_false]
      rw [Sparse.rising_cons]
      exact ⟨h.1, ih _ h.2⟩

theorem Sparse.rising_insert (l : Sparse α) (a : Nat) (x : α) (lo : Option Nat) (h : Sparse.rising lo l = true)
    (ha : ∀ n, lo = some n → n < a) : Sparse.rising lo (Sparse.insert l a x) = true := by
  induction l generalizing lo with
  | nil => simp only [Sparse.insert]; rw [Sparse.rising_cons]; exact ⟨ha, rfl⟩
  | cons e l ih =>
    obtain ⟨b, v⟩ := e
    rw [Sparse.rising_cons] at h
    by_cases hb : a = b
    · subst hb; simp only [Sparse.insert, if_true]; rw [Sparse.rising_cons]; exact h
    · by_cases hl : a < b
      · simp only [Sparse.insert, hb, hl, if_true, if_false]
        rw [Sparse.rising_cons, Sparse.rising_cons]
        exact ⟨ha, fun n hn => by cases hn; exact hl, h.2⟩
      · simp only [Sparse.insert, hb, hl, if_false]
        rw [Sparse.rising_cons]
        exact ⟨h.1, ih _ h.2 fun n hn => by cases hn; omega⟩

theorem Sparse.mem_erase {l : Sparse α} {a : Nat} {e : Nat × α} (h : e ∈ Sparse.erase l a) : e ∈ l := by
  induction l with
  | nil => exact h
  | cons c l ih =>
    obtain ⟨b, v⟩ := c
    by_cases hb : a = b
    · simp only [Sparse.erase, hb, if_true] at h; exact List.mem_cons_of_mem _ (ih (hb ▸ h))
    · simp only [Sparse.erase, hb, if_false, List.mem_cons] at h ⊢
      exact h.imp id ih

theorem Sparse.mem_insert {l : Sparse α} {a : Nat} {x : α} {e : Nat × α} (h : e ∈ Sparse.insert l a x) :
    e = (a, x) ∨ e ∈ l := by
  induction l with
  | nil => simpa [Sparse.insert] using h
  | cons c l ih =>
    obtain ⟨b, v⟩ := c
    by_cases hb : a = b
    · simp only [Sparse.insert, hb, if_true, List.mem_cons] at h
      exact h.imp (fun h => hb ▸ h) (List.mem_cons_of_mem _)
    · by_cases hl : a < b
      · simp only [Sparse.insert, hb, hl, if_true, if_false, List.mem_cons] at h
        exact h.imp id fun h => by simpa using h
      · simp only [Sparse.insert, hb, hl, if_false, List.mem_cons] at h
        rcases h with h | h
        · exact .inr (by simp [h])
        · exact (ih h).imp id (List.mem_cons_of_mem _)

/-- A write keeps the canonical form. -/
theorem Sparse.wf_write [DecidableEq α] (d : Nat → Option α) (l : Sparse α) (a : Nat) (x : α)
    (h : Sparse.wf d l = true) : Sparse.wf d (Sparse.write d l a x) = true := by
  simp only [Sparse.wf, Bool.and_eq_true, List.all_eq_true, Bool.not_eq_true', decide_eq_false_iff_not] at h ⊢
  unfold Sparse.write
  split
  · exact ⟨Sparse.rising_erase _ _ _ h.1, fun e he => h.2 e (Sparse.mem_erase he)⟩
  · refine ⟨Sparse.rising_insert _ _ _ _ h.1 (fun n hn => by cases hn), fun e he => ?_⟩
    rcases Sparse.mem_insert he with rfl | he
    · assumption
    · exact h.2 e he

theorem Sparse.rising_filter (l : Sparse α) (p : Nat × α → Bool) (lo : Option Nat) (h : Sparse.rising lo l = true) :
    Sparse.rising lo (l.filter p) = true := by
  induction l generalizing lo with
  | nil => exact h
  | cons e l ih =>
    obtain ⟨b, v⟩ := e
    rw [Sparse.rising_cons] at h
    by_cases hp : p (b, v)
    · simp only [List.filter, hp]; rw [Sparse.rising_cons]; exact ⟨h.1, ih _ h.2⟩
    · simp only [List.filter, hp]
      exact ih lo (Sparse.rising_mono (fun n hn => ⟨b, rfl, Nat.le_of_lt (h.1 n hn)⟩) h.2)

/-- Entries dropped keep the canonical form. -/
theorem Sparse.wf_filter [DecidableEq α] (d : Nat → Option α) (l : Sparse α) (p : Nat × α → Bool)
    (h : Sparse.wf d l = true) : Sparse.wf d (l.filter p) = true := by
  simp only [Sparse.wf, Bool.and_eq_true, List.all_eq_true, Bool.not_eq_true', decide_eq_false_iff_not] at h ⊢
  exact ⟨Sparse.rising_filter _ _ _ h.1, fun e he => h.2 e (List.mem_of_mem_filter he)⟩

/-! ### Memories -/

theorem Memory.read_eq {n : Nat} (m : Memory n) (a : Nat) :
    m.read? a = (Sparse.find m.cells a).orElse fun _ => m.base := by
  unfold Memory.read?
  cases Sparse.find m.cells a <;> rfl

theorem Memory.read_write {n : Nat} (m : Memory n) (a b : Nat) (v : BitVec n) :
    (m.write a v).read? b = if b = a then some v else m.read? b := by
  rw [Memory.read_eq, Memory.read_eq]
  exact Sparse.find_write (fun _ => m.base) m.cells a b v

theorem Memory.write_base {n : Nat} (m : Memory n) (a : Nat) (v : BitVec n) : (m.write a v).base = m.base := rfl

theorem Memory.wf_write {n : Nat} (m : Memory n) (a : Nat) (v : BitVec n) (h : m.wf = true) : (m.write a v).wf = true :=
  Sparse.wf_write (fun _ => m.base) m.cells a v h

theorem Memory.wf_writes {n : Nat} (m : Memory n) (a : Nat) (vs : List (BitVec n)) (h : m.wf = true) :
    (m.writes a vs).wf = true := by
  induction vs generalizing m a with
  | nil => exact h
  | cons v vs ih => exact ih _ _ (Memory.wf_write m a v h)

/-- Stores of consecutive words change no word outside their range. -/
theorem Memory.read_writes_out {n : Nat} (m : Memory n) (a b : Nat) (vs : List (BitVec n))
    (h : b < a ∨ a + vs.length ≤ b) : (m.writes a vs).read? b = m.read? b := by
  induction vs generalizing m a with
  | nil => rfl
  | cons v vs ih =>
    simp only [List.length_cons] at h
    have hb : b ≠ a := by omega
    rw [Memory.writes, ih (m.write a v) (a + 1) (by omega), Memory.read_write, if_neg hb]

/-- Stores of consecutive words give each word of their range its value. -/
theorem Memory.read_writes_in {n : Nat} (m : Memory n) (a i : Nat) (vs : List (BitVec n)) (h : i < vs.length) :
    (m.writes a vs).read? (a + i) = some vs[i] := by
  induction vs generalizing m a i with
  | nil => simp at h
  | cons v vs ih =>
    cases i with
    | zero =>
      rw [Memory.writes, Memory.read_writes_out _ _ _ _ (by omega), Memory.read_write]
      simp
    | succ i =>
      simp only [List.length_cons] at h
      have := ih (m.write a v) (a + 1) i (by omega)
      rw [Memory.writes, show a + (i + 1) = a + 1 + i by omega, this]
      simp

theorem Memory.lost_wf {n : Nat} : (Memory.lost : Memory n).wf = true := rfl
theorem Memory.zero_wf {n : Nat} : (Memory.zero : Memory n).wf = true := rfl

end Sys2Proof.Machine
end

