-- ==== Sys2Proof/Laws/State.lean ====
section
/-! SUPPORT. One lemma for each field and each update of State, true by unfolding: what the update leaves as it was. -/

namespace Sys2Proof.Machine

/-! ### The register updates are writes of one register -/

@[simp] theorem State.setBit_eq (s : State) (a n : Nat) (b : Bool) : 
    s.setBit a n b = (s.note a (if b then putBit 0 n true else 0)).setReg a (putBit (s.reg a) n b) := rfl
@[simp] theorem State.setFld_eq (s : State) (a lo len v : Nat) :
    s.setFld a lo len v = s.setReg a (putFld (s.reg a) lo len v) := rfl
@[simp] theorem State.orReg_eq (s : State) (a : Nat) (m : Word) :
    s.orReg a m = (s.note a m).setReg a (s.reg a ||| m) := rfl
/-- A noted bit changes no register. -/
@[simp] theorem State.note_reg (s : State) (a b : Nat) (m : Word) : (s.note a m).reg b = s.reg b := rfl
@[simp] theorem State.addSat_eq (s : State) (a k : Nat) : s.addSat a k = s.setReg a (satAdd (s.reg a) k) := rfl
@[simp] theorem State.incReg_eq (s : State) (a : Nat) : s.incReg a = s.setReg a (s.reg a + 1) := rfl
@[simp] theorem State.onCtx_eq (s : State) (x : CtxId) (f : Ctx → Ctx) : s.onCtx x f = s.setCtx x (f (s.ctx x)) := rfl

/-! ### setReg -/

@[simp] theorem State.setReg_nut (s : State) (a : Nat) (v : Word) : (s.setReg a v).nut = s.nut := rfl
@[simp] theorem State.setReg_nutRun (s : State) (a : Nat) (v : Word) : (s.setReg a v).nutRun = s.nutRun := rfl
@[simp] theorem State.setReg_replicas (s : State) (a : Nat) (v : Word) : (s.setReg a v).replicas = s.replicas := rfl
@[simp] theorem State.setReg_power (s : State) (a : Nat) (v : Word) : (s.setReg a v).power = s.power := rfl
@[simp] theorem State.setReg_irq (s : State) (a : Nat) (v : Word) : (s.setReg a v).irq = s.irq := rfl
@[simp] theorem State.setReg_flight (s : State) (a : Nat) (v : Word) : (s.setReg a v).flight = s.flight := rfl
@[simp] theorem State.setReg_setNow (s : State) (a : Nat) (v : Word) : (s.setReg a v).setNow = s.setNow := rfl
@[simp] theorem State.setReg_rdShadow (s : State) (a : Nat) (v : Word) : (s.setReg a v).rdShadow = s.rdShadow := rfl
@[simp] theorem State.setReg_wrShadow (s : State) (a : Nat) (v : Word) : (s.setReg a v).wrShadow = s.wrShadow := rfl
@[simp] theorem State.setReg_speedAt (s : State) (a : Nat) (v : Word) : (s.setReg a v).speedAt = s.speedAt := rfl
@[simp] theorem State.setReg_tunings (s : State) (a : Nat) (v : Word) : (s.setReg a v).tunings = s.tunings := rfl
@[simp] theorem State.setReg_leap (s : State) (a : Nat) (v : Word) : (s.setReg a v).leap = s.leap := rfl
@[simp] theorem State.setReg_lines (s : State) (a : Nat) (v : Word) : (s.setReg a v).lines = s.lines := rfl
@[simp] theorem State.setReg_picks (s : State) (a : Nat) (v : Word) : (s.setReg a v).picks = s.picks := rfl
@[simp] theorem State.setReg_fmus (s : State) (a : Nat) (v : Word) : (s.setReg a v).fmus = s.fmus := rfl
@[simp] theorem State.setReg_house (s : State) (a : Nat) (v : Word) : (s.setReg a v).house = s.house := rfl
@[simp] theorem State.setReg_plucks (s : State) (a : Nat) (v : Word) : (s.setReg a v).plucks = s.plucks := rfl
@[simp] theorem State.setReg_edges (s : State) (a : Nat) (v : Word) : (s.setReg a v).edges = s.edges := rfl
@[simp] theorem State.setReg_reconvAt (s : State) (a : Nat) (v : Word) : (s.setReg a v).reconvAt = s.reconvAt := rfl
@[simp] theorem State.setReg_panel (s : State) (a : Nat) (v : Word) : (s.setReg a v).panel = s.panel := rfl
@[simp] theorem State.setReg_slots (s : State) (a : Nat) (v : Word) : (s.setReg a v).slots = s.slots := rfl
@[simp] theorem State.setReg_bridge (s : State) (a : Nat) (v : Word) : (s.setReg a v).bridge = s.bridge := rfl
@[simp] theorem State.setReg_synths (s : State) (a : Nat) (v : Word) : (s.setReg a v).synths = s.synths := rfl
@[simp] theorem State.setReg_foutClk (s : State) (a : Nat) (v : Word) : (s.setReg a v).foutClk = s.foutClk := rfl
@[simp] theorem State.setReg_irigCf (s : State) (a : Nat) (v : Word) : (s.setReg a v).irigCf = s.irigCf := rfl
@[simp] theorem State.setReg_irig (s : State) (a : Nat) (v : Word) : (s.setReg a v).irig = s.irig := rfl
@[simp] theorem State.setReg_tods (s : State) (a : Nat) (v : Word) : (s.setReg a v).tods = s.tods := rfl
@[simp] theorem State.setReg_ctxs (s : State) (a : Nat) (v : Word) : (s.setReg a v).ctxs = s.ctxs := rfl
@[simp] theorem State.setReg_quiet (s : State) (a : Nat) (v : Word) : (s.setReg a v).quiet = s.quiet := rfl
@[simp] theorem State.setReg_lastIss (s : State) (a : Nat) (v : Word) : (s.setReg a v).lastIss = s.lastIss := rfl
@[simp] theorem State.setReg_lastPc (s : State) (a : Nat) (v : Word) : (s.setReg a v).lastPc = s.lastPc := rfl
@[simp] theorem State.setReg_courses (s : State) (a : Nat) (v : Word) : (s.setReg a v).courses = s.courses := rfl
@[simp] theorem State.setReg_client (s : State) (a : Nat) (v : Word) : (s.setReg a v).client = s.client := rfl
@[simp] theorem State.setReg_bad (s : State) (a : Nat) (v : Word) : (s.setReg a v).bad = s.bad := rfl
@[simp] theorem State.setReg_ports (s : State) (a : Nat) (v : Word) : (s.setReg a v).ports = s.ports := rfl
@[simp] theorem State.setReg_i2cRun (s : State) (a : Nat) (v : Word) : (s.setReg a v).i2cRun = s.i2cRun := rfl
@[simp] theorem State.setReg_txRings (s : State) (a : Nat) (v : Word) : (s.setReg a v).txRings = s.txRings := rfl
@[simp] theorem State.setReg_rxLost (s : State) (a : Nat) (v : Word) : (s.setReg a v).rxLost = s.rxLost := rfl
@[simp] theorem State.setReg_keys (s : State) (a : Nat) (v : Word) : (s.setReg a v).keys = s.keys := rfl
@[simp] theorem State.setReg_hostMem (s : State) (a : Nat) (v : Word) : (s.setReg a v).hostMem = s.hostMem := rfl
@[simp] theorem State.setReg_counters (s : State) (a : Nat) (v : Word) : (s.setReg a v).counters = s.counters := rfl
@[simp] theorem State.setReg_cntStart (s : State) (a : Nat) (v : Word) : (s.setReg a v).cntStart = s.cntStart := rfl
@[simp] theorem State.setReg_cntReq (s : State) (a : Nat) (v : Word) : (s.setReg a v).cntReq = s.cntReq := rfl
@[simp] theorem State.setReg_bank (s : State) (a : Nat) (v : Word) : (s.setReg a v).bank = s.bank := rfl
@[simp] theorem State.setReg_dumpLost (s : State) (a : Nat) (v : Word) : (s.setReg a v).dumpLost = s.dumpLost := rfl
@[simp] theorem State.setReg_harp (s : State) (a : Nat) (v : Word) : (s.setReg a v).harp = s.harp := rfl
@[simp] theorem State.setReg_load (s : State) (a : Nat) (v : Word) : (s.setReg a v).load = s.load := rfl
@[simp] theorem State.setReg_spi (s : State) (a : Nat) (v : Word) : (s.setReg a v).spi = s.spi := rfl
@[simp] theorem State.setReg_freeCtr (s : State) (a : Nat) (v : Word) : (s.setReg a v).freeCtr = s.freeCtr := rfl
@[simp] theorem State.setReg_pending (s : State) (a : Nat) (v : Word) : (s.setReg a v).pending = s.pending := rfl

/-! ### note -/

@[simp] theorem State.note_nut (s : State) (a : Nat) (m : Word) : (s.note a m).nut = s.nut := rfl
@[simp] theorem State.note_nutRun (s : State) (a : Nat) (m : Word) : (s.note a m).nutRun = s.nutRun := rfl
@[simp] theorem State.note_replicas (s : State) (a : Nat) (m : Word) : (s.note a m).replicas = s.replicas := rfl
@[simp] theorem State.note_power (s : State) (a : Nat) (m : Word) : (s.note a m).power = s.power := rfl
@[simp] theorem State.note_irq (s : State) (a : Nat) (m : Word) : (s.note a m).irq = s.irq := rfl
@[simp] theorem State.note_flight (s : State) (a : Nat) (m : Word) : (s.note a m).flight = s.flight := rfl
@[simp] theorem State.note_regs (s : State) (a : Nat) (m : Word) : (s.note a m).regs = s.regs := rfl
@[simp] theorem State.note_rdShadow (s : State) (a : Nat) (m : Word) : (s.note a m).rdShadow = s.rdShadow := rfl
@[simp] theorem State.note_wrShadow (s : State) (a : Nat) (m : Word) : (s.note a m).wrShadow = s.wrShadow := rfl
@[simp] theorem State.note_speedAt (s : State) (a : Nat) (m : Word) : (s.note a m).speedAt = s.speedAt := rfl
@[simp] theorem State.note_tunings (s : State) (a : Nat) (m : Word) : (s.note a m).tunings = s.tunings := rfl
@[simp] theorem State.note_leap (s : State) (a : Nat) (m : Word) : (s.note a m).leap = s.leap := rfl
@[simp] theorem State.note_lines (s : State) (a : Nat) (m : Word) : (s.note a m).lines = s.lines := rfl
@[simp] theorem State.note_picks (s : State) (a : Nat) (m : Word) : (s.note a m).picks = s.picks := rfl
@[simp] theorem State.note_fmus (s : State) (a : Nat) (m : Word) : (s.note a m).fmus = s.fmus := rfl
@[simp] theorem State.note_house (s : State) (a : Nat) (m : Word) : (s.note a m).house = s.house := rfl
@[simp] theorem State.note_plucks (s : State) (a : Nat) (m : Word) : (s.note a m).plucks = s.plucks := rfl
@[simp] theorem State.note_edges (s : State) (a : Nat) (m : Word) : (s.note a m).edges = s.edges := rfl
@[simp] theorem State.note_reconvAt (s : State) (a : Nat) (m : Word) : (s.note a m).reconvAt = s.reconvAt := rfl
@[simp] theorem State.note_panel (s : State) (a : Nat) (m : Word) : (s.note a m).panel = s.panel := rfl
@[simp] theorem State.note_slots (s : State) (a : Nat) (m : Word) : (s.note a m).slots = s.slots := rfl
@[simp] theorem State.note_bridge (s : State) (a : Nat) (m : Word) : (s.note a m).bridge = s.bridge := rfl
@[simp] theorem State.note_synths (s : State) (a : Nat) (m : Word) : (s.note a m).synths = s.synths := rfl
@[simp] theorem State.note_foutClk (s : State) (a : Nat) (m : Word) : (s.note a m).foutClk = s.foutClk := rfl
@[simp] theorem State.note_irigCf (s : State) (a : Nat) (m : Word) : (s.note a m).irigCf = s.irigCf := rfl
@[simp] theorem State.note_irig (s : State) (a : Nat) (m : Word) : (s.note a m).irig = s.irig := rfl
@[simp] theorem State.note_tods (s : State) (a : Nat) (m : Word) : (s.note a m).tods = s.tods := rfl
@[simp] theorem State.note_ctxs (s : State) (a : Nat) (m : Word) : (s.note a m).ctxs = s.ctxs := rfl
@[simp] theorem State.note_quiet (s : State) (a : Nat) (m : Word) : (s.note a m).quiet = s.quiet := rfl
@[simp] theorem State.note_lastIss (s : State) (a : Nat) (m : Word) : (s.note a m).lastIss = s.lastIss := rfl
@[simp] theorem State.note_lastPc (s : State) (a : Nat) (m : Word) : (s.note a m).lastPc = s.lastPc := rfl
@[simp] theorem State.note_courses (s : State) (a : Nat) (m : Word) : (s.note a m).courses = s.courses := rfl
@[simp] theorem State.note_client (s : State) (a : Nat) (m : Word) : (s.note a m).client = s.client := rfl
@[simp] theorem State.note_bad (s : State) (a : Nat) (m : Word) : (s.note a m).bad = s.bad := rfl
@[simp] theorem State.note_ports (s : State) (a : Nat) (m : Word) : (s.note a m).ports = s.ports := rfl
@[simp] theorem State.note_i2cRun (s : State) (a : Nat) (m : Word) : (s.note a m).i2cRun = s.i2cRun := rfl
@[simp] theorem State.note_txRings (s : State) (a : Nat) (m : Word) : (s.note a m).txRings = s.txRings := rfl
@[simp] theorem State.note_rxLost (s : State) (a : Nat) (m : Word) : (s.note a m).rxLost = s.rxLost := rfl
@[simp] theorem State.note_keys (s : State) (a : Nat) (m : Word) : (s.note a m).keys = s.keys := rfl
@[simp] theorem State.note_hostMem (s : State) (a : Nat) (m : Word) : (s.note a m).hostMem = s.hostMem := rfl
@[simp] theorem State.note_counters (s : State) (a : Nat) (m : Word) : (s.note a m).counters = s.counters := rfl
@[simp] theorem State.note_cntStart (s : State) (a : Nat) (m : Word) : (s.note a m).cntStart = s.cntStart := rfl
@[simp] theorem State.note_cntReq (s : State) (a : Nat) (m : Word) : (s.note a m).cntReq = s.cntReq := rfl
@[simp] theorem State.note_bank (s : State) (a : Nat) (m : Word) : (s.note a m).bank = s.bank := rfl
@[simp] theorem State.note_dumpLost (s : State) (a : Nat) (m : Word) : (s.note a m).dumpLost = s.dumpLost := rfl
@[simp] theorem State.note_harp (s : State) (a : Nat) (m : Word) : (s.note a m).harp = s.harp := rfl
@[simp] theorem State.note_load (s : State) (a : Nat) (m : Word) : (s.note a m).load = s.load := rfl
@[simp] theorem State.note_spi (s : State) (a : Nat) (m : Word) : (s.note a m).spi = s.spi := rfl
@[simp] theorem State.note_freeCtr (s : State) (a : Nat) (m : Word) : (s.note a m).freeCtr = s.freeCtr := rfl
@[simp] theorem State.note_pending (s : State) (a : Nat) (m : Word) : (s.note a m).pending = s.pending := rfl

/-! ### setRegN -/

/-- A multi-word write changes register words alone. -/
theorem State.setRegN_frame (s : State) (a k v : Nat) :
    s.setRegN a k v = { s with regs := (s.setRegN a k v).regs } := by
  induction k generalizing s a v with
  | zero => rfl
  | succ k ih => exact ih _ _ _

@[simp] theorem State.setRegN_nut (s : State) (a k v : Nat) : (s.setRegN a k v).nut = s.nut := by rw [State.setRegN_frame]
@[simp] theorem State.setRegN_nutRun (s : State) (a k v : Nat) : (s.setRegN a k v).nutRun = s.nutRun := by rw [State.setRegN_frame]
@[simp] theorem State.setRegN_replicas (s : State) (a k v : Nat) : (s.setRegN a k v).replicas = s.replicas := by rw [State.setRegN_frame]
@[simp] theorem State.setRegN_power (s : State) (a k v : Nat) : (s.setRegN a k v).power = s.power := by rw [State.setRegN_frame]
@[simp] theorem State.setRegN_irq (s : State) (a k v : Nat) : (s.setRegN a k v).irq = s.irq := by rw [State.setRegN_frame]
@[simp] theorem State.setRegN_flight (s : State) (a k v : Nat) : (s.setRegN a k v).flight = s.flight := by rw [State.setRegN_frame]
@[simp] theorem State.setRegN_setNow (s : State) (a k v : Nat) : (s.setRegN a k v).setNow = s.setNow := by rw [State.setRegN_frame]
@[simp] theorem State.setRegN_rdShadow (s : State) (a k v : Nat) : (s.setRegN a k v).rdShadow = s.rdShadow := by rw [State.setRegN_frame]
@[simp] theorem State.setRegN_wrShadow (s : State) (a k v : Nat) : (s.setRegN a k v).wrShadow = s.wrShadow := by rw [State.setRegN_frame]
@[simp] theorem State.setRegN_speedAt (s : State) (a k v : Nat) : (s.setRegN a k v).speedAt = s.speedAt := by rw [State.setRegN_frame]
@[simp] theorem State.setRegN_tunings (s : State) (a k v : Nat) : (s.setRegN a k v).tunings = s.tunings := by rw [State.setRegN_frame]
@[simp] theorem State.setRegN_leap (s : State) (a k v : Nat) : (s.setRegN a k v).leap = s.leap := by rw [State.setRegN_frame]
@[simp] theorem State.setRegN_lines (s : State) (a k v : Nat) : (s.setRegN a k v).lines = s.lines := by rw [State.setRegN_frame]
@[simp] theorem State.setRegN_picks (s : State) (a k v : Nat) : (s.setRegN a k v).picks = s.picks := by rw [State.setRegN_frame]
@[simp] theorem State.setRegN_fmus (s : State) (a k v : Nat) : (s.setRegN a k v).fmus = s.fmus := by rw [State.setRegN_frame]
@[simp] theorem State.setRegN_house (s : State) (a k v : Nat) : (s.setRegN a k v).house = s.house := by rw [State.setRegN_frame]
@[simp] theorem State.setRegN_plucks (s : State) (a k v : Nat) : (s.setRegN a k v).plucks = s.plucks := by rw [State.setRegN_frame]
@[simp] theorem State.setRegN_edges (s : State) (a k v : Nat) : (s.setRegN a k v).edges = s.edges := by rw [State.setRegN_frame]
@[simp] theorem State.setRegN_reconvAt (s : State) (a k v : Nat) : (s.setRegN a k v).reconvAt = s.reconvAt := by rw [State.setRegN_frame]
@[simp] theorem State.setRegN_panel (s : State) (a k v : Nat) : (s.setRegN a k v).panel = s.panel := by rw [State.setRegN_frame]
@[simp] theorem State.setRegN_slots (s : State) (a k v : Nat) : (s.setRegN a k v).slots = s.slots := by rw [State.setRegN_frame]
@[simp] theorem State.setRegN_bridge (s : State) (a k v : Nat) : (s.setRegN a k v).bridge = s.bridge := by rw [State.setRegN_frame]
@[simp] theorem State.setRegN_synths (s : State) (a k v : Nat) : (s.setRegN a k v).synths = s.synths := by rw [State.setRegN_frame]
@[simp] theorem State.setRegN_foutClk (s : State) (a k v : Nat) : (s.setRegN a k v).foutClk = s.foutClk := by rw [State.setRegN_frame]
@[simp] theorem State.setRegN_irigCf (s : State) (a k v : Nat) : (s.setRegN a k v).irigCf = s.irigCf := by rw [State.setRegN_frame]
@[simp] theorem State.setRegN_irig (s : State) (a k v : Nat) : (s.setRegN a k v).irig = s.irig := by rw [State.setRegN_frame]
@[simp] theorem State.setRegN_tods (s : State) (a k v : Nat) : (s.setRegN a k v).tods = s.tods := by rw [State.setRegN_frame]
@[simp] theorem State.setRegN_ctxs (s : State) (a k v : Nat) : (s.setRegN a k v).ctxs = s.ctxs := by rw [State.setRegN_frame]
@[simp] theorem State.setRegN_quiet (s : State) (a k v : Nat) : (s.setRegN a k v).quiet = s.quiet := by rw [State.setRegN_frame]
@[simp] theorem State.setRegN_lastIss (s : State) (a k v : Nat) : (s.setRegN a k v).lastIss = s.lastIss := by rw [State.setRegN_frame]
@[simp] theorem State.setRegN_lastPc (s : State) (a k v : Nat) : (s.setRegN a k v).lastPc = s.lastPc := by rw [State.setRegN_frame]
@[simp] theorem State.setRegN_courses (s : State) (a k v : Nat) : (s.setRegN a k v).courses = s.courses := by rw [State.setRegN_frame]
@[simp] theorem State.setRegN_client (s : State) (a k v : Nat) : (s.setRegN a k v).client = s.client := by rw [State.setRegN_frame]
@[simp] theorem State.setRegN_bad (s : State) (a k v : Nat) : (s.setRegN a k v).bad = s.bad := by rw [State.setRegN_frame]
@[simp] theorem State.setRegN_ports (s : State) (a k v : Nat) : (s.setRegN a k v).ports = s.ports := by rw [State.setRegN_frame]
@[simp] theorem State.setRegN_i2cRun (s : State) (a k v : Nat) : (s.setRegN a k v).i2cRun = s.i2cRun := by rw [State.setRegN_frame]
@[simp] theorem State.setRegN_txRings (s : State) (a k v : Nat) : (s.setRegN a k v).txRings = s.txRings := by rw [State.setRegN_frame]
@[simp] theorem State.setRegN_rxLost (s : State) (a k v : Nat) : (s.setRegN a k v).rxLost = s.rxLost := by rw [State.setRegN_frame]
@[simp] theorem State.setRegN_keys (s : State) (a k v : Nat) : (s.setRegN a k v).keys = s.keys := by rw [State.setRegN_frame]
@[simp] theorem State.setRegN_hostMem (s : State) (a k v : Nat) : (s.setRegN a k v).hostMem = s.hostMem := by rw [State.setRegN_frame]
@[simp] theorem State.setRegN_counters (s : State) (a k v : Nat) : (s.setRegN a k v).counters = s.counters := by rw [State.setRegN_frame]
@[simp] theorem State.setRegN_cntStart (s : State) (a k v : Nat) : (s.setRegN a k v).cntStart = s.cntStart := by rw [State.setRegN_frame]
@[simp] theorem State.setRegN_cntReq (s : State) (a k v : Nat) : (s.setRegN a k v).cntReq = s.cntReq := by rw [State.setRegN_frame]
@[simp] theorem State.setRegN_bank (s : State) (a k v : Nat) : (s.setRegN a k v).bank = s.bank := by rw [State.setRegN_frame]
@[simp] theorem State.setRegN_dumpLost (s : State) (a k v : Nat) : (s.setRegN a k v).dumpLost = s.dumpLost := by rw [State.setRegN_frame]
@[simp] theorem State.setRegN_harp (s : State) (a k v : Nat) : (s.setRegN a k v).harp = s.harp := by rw [State.setRegN_frame]
@[simp] theorem State.setRegN_load (s : State) (a k v : Nat) : (s.setRegN a k v).load = s.load := by rw [State.setRegN_frame]
@[simp] theorem State.setRegN_spi (s : State) (a k v : Nat) : (s.setRegN a k v).spi = s.spi := by rw [State.setRegN_frame]
@[simp] theorem State.setRegN_freeCtr (s : State) (a k v : Nat) : (s.setRegN a k v).freeCtr = s.freeCtr := by rw [State.setRegN_frame]
@[simp] theorem State.setRegN_pending (s : State) (a k v : Nat) : (s.setRegN a k v).pending = s.pending := by rw [State.setRegN_frame]

/-! ### free -/

@[simp] theorem State.free_nut (s : State) (w : Nat) : ((s.free w).2).nut = s.nut := rfl
@[simp] theorem State.free_nutRun (s : State) (w : Nat) : ((s.free w).2).nutRun = s.nutRun := rfl
@[simp] theorem State.free_replicas (s : State) (w : Nat) : ((s.free w).2).replicas = s.replicas := rfl
@[simp] theorem State.free_power (s : State) (w : Nat) : ((s.free w).2).power = s.power := rfl
@[simp] theorem State.free_irq (s : State) (w : Nat) : ((s.free w).2).irq = s.irq := rfl
@[simp] theorem State.free_flight (s : State) (w : Nat) : ((s.free w).2).flight = s.flight := rfl
@[simp] theorem State.free_regs (s : State) (w : Nat) : ((s.free w).2).regs = s.regs := rfl
@[simp] theorem State.free_setNow (s : State) (w : Nat) : ((s.free w).2).setNow = s.setNow := rfl
@[simp] theorem State.free_rdShadow (s : State) (w : Nat) : ((s.free w).2).rdShadow = s.rdShadow := rfl
@[simp] theorem State.free_wrShadow (s : State) (w : Nat) : ((s.free w).2).wrShadow = s.wrShadow := rfl
@[simp] theorem State.free_speedAt (s : State) (w : Nat) : ((s.free w).2).speedAt = s.speedAt := rfl
@[simp] theorem State.free_tunings (s : State) (w : Nat) : ((s.free w).2).tunings = s.tunings := rfl
@[simp] theorem State.free_leap (s : State) (w : Nat) : ((s.free w).2).leap = s.leap := rfl
@[simp] theorem State.free_lines (s : State) (w : Nat) : ((s.free w).2).lines = s.lines := rfl
@[simp] theorem State.free_picks (s : State) (w : Nat) : ((s.free w).2).picks = s.picks := rfl
@[simp] theorem State.free_fmus (s : State) (w : Nat) : ((s.free w).2).fmus = s.fmus := rfl
@[simp] theorem State.free_house (s : State) (w : Nat) : ((s.free w).2).house = s.house := rfl
@[simp] theorem State.free_plucks (s : State) (w : Nat) : ((s.free w).2).plucks = s.plucks := rfl
@[simp] theorem State.free_edges (s : State) (w : Nat) : ((s.free w).2).edges = s.edges := rfl
@[simp] theorem State.free_reconvAt (s : State) (w : Nat) : ((s.free w).2).reconvAt = s.reconvAt := rfl
@[simp] theorem State.free_panel (s : State) (w : Nat) : ((s.free w).2).panel = s.panel := rfl
@[simp] theorem State.free_slots (s : State) (w : Nat) : ((s.free w).2).slots = s.slots := rfl
@[simp] theorem State.free_bridge (s : State) (w : Nat) : ((s.free w).2).bridge = s.bridge := rfl
@[simp] theorem State.free_synths (s : State) (w : Nat) : ((s.free w).2).synths = s.synths := rfl
@[simp] theorem State.free_foutClk (s : State) (w : Nat) : ((s.free w).2).foutClk = s.foutClk := rfl
@[simp] theorem State.free_irigCf (s : State) (w : Nat) : ((s.free w).2).irigCf = s.irigCf := rfl
@[simp] theorem State.free_irig (s : State) (w : Nat) : ((s.free w).2).irig = s.irig := rfl
@[simp] theorem State.free_tods (s : State) (w : Nat) : ((s.free w).2).tods = s.tods := rfl
@[simp] theorem State.free_ctxs (s : State) (w : Nat) : ((s.free w).2).ctxs = s.ctxs := rfl
@[simp] theorem State.free_quiet (s : State) (w : Nat) : ((s.free w).2).quiet = s.quiet := rfl
@[simp] theorem State.free_lastIss (s : State) (w : Nat) : ((s.free w).2).lastIss = s.lastIss := rfl
@[simp] theorem State.free_lastPc (s : State) (w : Nat) : ((s.free w).2).lastPc = s.lastPc := rfl
@[simp] theorem State.free_courses (s : State) (w : Nat) : ((s.free w).2).courses = s.courses := rfl
@[simp] theorem State.free_client (s : State) (w : Nat) : ((s.free w).2).client = s.client := rfl
@[simp] theorem State.free_bad (s : State) (w : Nat) : ((s.free w).2).bad = s.bad := rfl
@[simp] theorem State.free_ports (s : State) (w : Nat) : ((s.free w).2).ports = s.ports := rfl
@[simp] theorem State.free_i2cRun (s : State) (w : Nat) : ((s.free w).2).i2cRun = s.i2cRun := rfl
@[simp] theorem State.free_txRings (s : State) (w : Nat) : ((s.free w).2).txRings = s.txRings := rfl
@[simp] theorem State.free_rxLost (s : State) (w : Nat) : ((s.free w).2).rxLost = s.rxLost := rfl
@[simp] theorem State.free_keys (s : State) (w : Nat) : ((s.free w).2).keys = s.keys := rfl
@[simp] theorem State.free_hostMem (s : State) (w : Nat) : ((s.free w).2).hostMem = s.hostMem := rfl
@[simp] theorem State.free_counters (s : State) (w : Nat) : ((s.free w).2).counters = s.counters := rfl
@[simp] theorem State.free_cntStart (s : State) (w : Nat) : ((s.free w).2).cntStart = s.cntStart := rfl
@[simp] theorem State.free_cntReq (s : State) (w : Nat) : ((s.free w).2).cntReq = s.cntReq := rfl
@[simp] theorem State.free_bank (s : State) (w : Nat) : ((s.free w).2).bank = s.bank := rfl
@[simp] theorem State.free_dumpLost (s : State) (w : Nat) : ((s.free w).2).dumpLost = s.dumpLost := rfl
@[simp] theorem State.free_harp (s : State) (w : Nat) : ((s.free w).2).harp = s.harp := rfl
@[simp] theorem State.free_load (s : State) (w : Nat) : ((s.free w).2).load = s.load := rfl
@[simp] theorem State.free_spi (s : State) (w : Nat) : ((s.free w).2).spi = s.spi := rfl
@[simp] theorem State.free_pending (s : State) (w : Nat) : ((s.free w).2).pending = s.pending := rfl

/-! ### setCtx -/

@[simp] theorem State.setCtx_nut (s : State) (x : CtxId) (c : Ctx) : (s.setCtx x c).nut = s.nut := rfl
@[simp] theorem State.setCtx_nutRun (s : State) (x : CtxId) (c : Ctx) : (s.setCtx x c).nutRun = s.nutRun := rfl
@[simp] theorem State.setCtx_replicas (s : State) (x : CtxId) (c : Ctx) : (s.setCtx x c).replicas = s.replicas := rfl
@[simp] theorem State.setCtx_power (s : State) (x : CtxId) (c : Ctx) : (s.setCtx x c).power = s.power := rfl
@[simp] theorem State.setCtx_irq (s : State) (x : CtxId) (c : Ctx) : (s.setCtx x c).irq = s.irq := rfl
@[simp] theorem State.setCtx_flight (s : State) (x : CtxId) (c : Ctx) : (s.setCtx x c).flight = s.flight := rfl
@[simp] theorem State.setCtx_regs (s : State) (x : CtxId) (c : Ctx) : (s.setCtx x c).regs = s.regs := rfl
@[simp] theorem State.setCtx_setNow (s : State) (x : CtxId) (c : Ctx) : (s.setCtx x c).setNow = s.setNow := rfl
@[simp] theorem State.setCtx_rdShadow (s : State) (x : CtxId) (c : Ctx) : (s.setCtx x c).rdShadow = s.rdShadow := rfl
@[simp] theorem State.setCtx_wrShadow (s : State) (x : CtxId) (c : Ctx) : (s.setCtx x c).wrShadow = s.wrShadow := rfl
@[simp] theorem State.setCtx_speedAt (s : State) (x : CtxId) (c : Ctx) : (s.setCtx x c).speedAt = s.speedAt := rfl
@[simp] theorem State.setCtx_tunings (s : State) (x : CtxId) (c : Ctx) : (s.setCtx x c).tunings = s.tunings := rfl
@[simp] theorem State.setCtx_leap (s : State) (x : CtxId) (c : Ctx) : (s.setCtx x c).leap = s.leap := rfl
@[simp] theorem State.setCtx_lines (s : State) (x : CtxId) (c : Ctx) : (s.setCtx x c).lines = s.lines := rfl
@[simp] theorem State.setCtx_picks (s : State) (x : CtxId) (c : Ctx) : (s.setCtx x c).picks = s.picks := rfl
@[simp] theorem State.setCtx_fmus (s : State) (x : CtxId) (c : Ctx) : (s.setCtx x c).fmus = s.fmus := rfl
@[simp] theorem State.setCtx_house (s : State) (x : CtxId) (c : Ctx) : (s.setCtx x c).house = s.house := rfl
@[simp] theorem State.setCtx_plucks (s : State) (x : CtxId) (c : Ctx) : (s.setCtx x c).plucks = s.plucks := rfl
@[simp] theorem State.setCtx_edges (s : State) (x : CtxId) (c : Ctx) : (s.setCtx x c).edges = s.edges := rfl
@[simp] theorem State.setCtx_reconvAt (s : State) (x : CtxId) (c : Ctx) : (s.setCtx x c).reconvAt = s.reconvAt := rfl
@[simp] theorem State.setCtx_panel (s : State) (x : CtxId) (c : Ctx) : (s.setCtx x c).panel = s.panel := rfl
@[simp] theorem State.setCtx_slots (s : State) (x : CtxId) (c : Ctx) : (s.setCtx x c).slots = s.slots := rfl
@[simp] theorem State.setCtx_bridge (s : State) (x : CtxId) (c : Ctx) : (s.setCtx x c).bridge = s.bridge := rfl
@[simp] theorem State.setCtx_synths (s : State) (x : CtxId) (c : Ctx) : (s.setCtx x c).synths = s.synths := rfl
@[simp] theorem State.setCtx_foutClk (s : State) (x : CtxId) (c : Ctx) : (s.setCtx x c).foutClk = s.foutClk := rfl
@[simp] theorem State.setCtx_irigCf (s : State) (x : CtxId) (c : Ctx) : (s.setCtx x c).irigCf = s.irigCf := rfl
@[simp] theorem State.setCtx_irig (s : State) (x : CtxId) (c : Ctx) : (s.setCtx x c).irig = s.irig := rfl
@[simp] theorem State.setCtx_tods (s : State) (x : CtxId) (c : Ctx) : (s.setCtx x c).tods = s.tods := rfl
@[simp] theorem State.setCtx_quiet (s : State) (x : CtxId) (c : Ctx) : (s.setCtx x c).quiet = s.quiet := rfl
@[simp] theorem State.setCtx_lastIss (s : State) (x : CtxId) (c : Ctx) : (s.setCtx x c).lastIss = s.lastIss := rfl
@[simp] theorem State.setCtx_lastPc (s : State) (x : CtxId) (c : Ctx) : (s.setCtx x c).lastPc = s.lastPc := rfl
@[simp] theorem State.setCtx_courses (s : State) (x : CtxId) (c : Ctx) : (s.setCtx x c).courses = s.courses := rfl
@[simp] theorem State.setCtx_client (s : State) (x : CtxId) (c : Ctx) : (s.setCtx x c).client = s.client := rfl
@[simp] theorem State.setCtx_bad (s : State) (x : CtxId) (c : Ctx) : (s.setCtx x c).bad = s.bad := rfl
@[simp] theorem State.setCtx_ports (s : State) (x : CtxId) (c : Ctx) : (s.setCtx x c).ports = s.ports := rfl
@[simp] theorem State.setCtx_i2cRun (s : State) (x : CtxId) (c : Ctx) : (s.setCtx x c).i2cRun = s.i2cRun := rfl
@[simp] theorem State.setCtx_txRings (s : State) (x : CtxId) (c : Ctx) : (s.setCtx x c).txRings = s.txRings := rfl
@[simp] theorem State.setCtx_rxLost (s : State) (x : CtxId) (c : Ctx) : (s.setCtx x c).rxLost = s.rxLost := rfl
@[simp] theorem State.setCtx_keys (s : State) (x : CtxId) (c : Ctx) : (s.setCtx x c).keys = s.keys := rfl
@[simp] theorem State.setCtx_hostMem (s : State) (x : CtxId) (c : Ctx) : (s.setCtx x c).hostMem = s.hostMem := rfl
@[simp] theorem State.setCtx_counters (s : State) (x : CtxId) (c : Ctx) : (s.setCtx x c).counters = s.counters := rfl
@[simp] theorem State.setCtx_cntStart (s : State) (x : CtxId) (c : Ctx) : (s.setCtx x c).cntStart = s.cntStart := rfl
@[simp] theorem State.setCtx_cntReq (s : State) (x : CtxId) (c : Ctx) : (s.setCtx x c).cntReq = s.cntReq := rfl
@[simp] theorem State.setCtx_bank (s : State) (x : CtxId) (c : Ctx) : (s.setCtx x c).bank = s.bank := rfl
@[simp] theorem State.setCtx_dumpLost (s : State) (x : CtxId) (c : Ctx) : (s.setCtx x c).dumpLost = s.dumpLost := rfl
@[simp] theorem State.setCtx_harp (s : State) (x : CtxId) (c : Ctx) : (s.setCtx x c).harp = s.harp := rfl
@[simp] theorem State.setCtx_load (s : State) (x : CtxId) (c : Ctx) : (s.setCtx x c).load = s.load := rfl
@[simp] theorem State.setCtx_spi (s : State) (x : CtxId) (c : Ctx) : (s.setCtx x c).spi = s.spi := rfl
@[simp] theorem State.setCtx_freeCtr (s : State) (x : CtxId) (c : Ctx) : (s.setCtx x c).freeCtr = s.freeCtr := rfl
@[simp] theorem State.setCtx_pending (s : State) (x : CtxId) (c : Ctx) : (s.setCtx x c).pending = s.pending := rfl

/-! ### onCourse -/

@[simp] theorem State.onCourse_nut (s : State) (c : CourseId) (f : Course → Course) : (s.onCourse c f).nut = s.nut := rfl
@[simp] theorem State.onCourse_nutRun (s : State) (c : CourseId) (f : Course → Course) : (s.onCourse c f).nutRun = s.nutRun := rfl
@[simp] theorem State.onCourse_replicas (s : State) (c : CourseId) (f : Course → Course) : (s.onCourse c f).replicas = s.replicas := rfl
@[simp] theorem State.onCourse_power (s : State) (c : CourseId) (f : Course → Course) : (s.onCourse c f).power = s.power := rfl
@[simp] theorem State.onCourse_irq (s : State) (c : CourseId) (f : Course → Course) : (s.onCourse c f).irq = s.irq := rfl
@[simp] theorem State.onCourse_flight (s : State) (c : CourseId) (f : Course → Course) : (s.onCourse c f).flight = s.flight := rfl
@[simp] theorem State.onCourse_regs (s : State) (c : CourseId) (f : Course → Course) : (s.onCourse c f).regs = s.regs := rfl
@[simp] theorem State.onCourse_setNow (s : State) (c : CourseId) (f : Course → Course) : (s.onCourse c f).setNow = s.setNow := rfl
@[simp] theorem State.onCourse_rdShadow (s : State) (c : CourseId) (f : Course → Course) : (s.onCourse c f).rdShadow = s.rdShadow := rfl
@[simp] theorem State.onCourse_wrShadow (s : State) (c : CourseId) (f : Course → Course) : (s.onCourse c f).wrShadow = s.wrShadow := rfl
@[simp] theorem State.onCourse_speedAt (s : State) (c : CourseId) (f : Course → Course) : (s.onCourse c f).speedAt = s.speedAt := rfl
@[simp] theorem State.onCourse_tunings (s : State) (c : CourseId) (f : Course → Course) : (s.onCourse c f).tunings = s.tunings := rfl
@[simp] theorem State.onCourse_leap (s : State) (c : CourseId) (f : Course → Course) : (s.onCourse c f).leap = s.leap := rfl
@[simp] theorem State.onCourse_lines (s : State) (c : CourseId) (f : Course → Course) : (s.onCourse c f).lines = s.lines := rfl
@[simp] theorem State.onCourse_picks (s : State) (c : CourseId) (f : Course → Course) : (s.onCourse c f).picks = s.picks := rfl
@[simp] theorem State.onCourse_fmus (s : State) (c : CourseId) (f : Course → Course) : (s.onCourse c f).fmus = s.fmus := rfl
@[simp] theorem State.onCourse_house (s : State) (c : CourseId) (f : Course → Course) : (s.onCourse c f).house = s.house := rfl
@[simp] theorem State.onCourse_plucks (s : State) (c : CourseId) (f : Course → Course) : (s.onCourse c f).plucks = s.plucks := rfl
@[simp] theorem State.onCourse_edges (s : State) (c : CourseId) (f : Course → Course) : (s.onCourse c f).edges = s.edges := rfl
@[simp] theorem State.onCourse_reconvAt (s : State) (c : CourseId) (f : Course → Course) : (s.onCourse c f).reconvAt = s.reconvAt := rfl
@[simp] theorem State.onCourse_panel (s : State) (c : CourseId) (f : Course → Course) : (s.onCourse c f).panel = s.panel := rfl
@[simp] theorem State.onCourse_slots (s : State) (c : CourseId) (f : Course → Course) : (s.onCourse c f).slots = s.slots := rfl
@[simp] theorem State.onCourse_bridge (s : State) (c : CourseId) (f : Course → Course) : (s.onCourse c f).bridge = s.bridge := rfl
@[simp] theorem State.onCourse_synths (s : State) (c : CourseId) (f : Course → Course) : (s.onCourse c f).synths = s.synths := rfl
@[simp] theorem State.onCourse_foutClk (s : State) (c : CourseId) (f : Course → Course) : (s.onCourse c f).foutClk = s.foutClk := rfl
@[simp] theorem State.onCourse_irigCf (s : State) (c : CourseId) (f : Course → Course) : (s.onCourse c f).irigCf = s.irigCf := rfl
@[simp] theorem State.onCourse_irig (s : State) (c : CourseId) (f : Course → Course) : (s.onCourse c f).irig = s.irig := rfl
@[simp] theorem State.onCourse_tods (s : State) (c : CourseId) (f : Course → Course) : (s.onCourse c f).tods = s.tods := rfl
@[simp] theorem State.onCourse_ctxs (s : State) (c : CourseId) (f : Course → Course) : (s.onCourse c f).ctxs = s.ctxs := rfl
@[simp] theorem State.onCourse_quiet (s : State) (c : CourseId) (f : Course → Course) : (s.onCourse c f).quiet = s.quiet := rfl
@[simp] theorem State.onCourse_lastIss (s : State) (c : CourseId) (f : Course → Course) : (s.onCourse c f).lastIss = s.lastIss := rfl
@[simp] theorem State.onCourse_lastPc (s : State) (c : CourseId) (f : Course → Course) : (s.onCourse c f).lastPc = s.lastPc := rfl
@[simp] theorem State.onCourse_client (s : State) (c : CourseId) (f : Course → Course) : (s.onCourse c f).client = s.client := rfl
@[simp] theorem State.onCourse_bad (s : State) (c : CourseId) (f : Course → Course) : (s.onCourse c f).bad = s.bad := rfl
@[simp] theorem State.onCourse_ports (s : State) (c : CourseId) (f : Course → Course) : (s.onCourse c f).ports = s.ports := rfl
@[simp] theorem State.onCourse_i2cRun (s : State) (c : CourseId) (f : Course → Course) : (s.onCourse c f).i2cRun = s.i2cRun := rfl
@[simp] theorem State.onCourse_txRings (s : State) (c : CourseId) (f : Course → Course) : (s.onCourse c f).txRings = s.txRings := rfl
@[simp] theorem State.onCourse_rxLost (s : State) (c : CourseId) (f : Course → Course) : (s.onCourse c f).rxLost = s.rxLost := rfl
@[simp] theorem State.onCourse_keys (s : State) (c : CourseId) (f : Course → Course) : (s.onCourse c f).keys = s.keys := rfl
@[simp] theorem State.onCourse_hostMem (s : State) (c : CourseId) (f : Course → Course) : (s.onCourse c f).hostMem = s.hostMem := rfl
@[simp] theorem State.onCourse_counters (s : State) (c : CourseId) (f : Course → Course) : (s.onCourse c f).counters = s.counters := rfl
@[simp] theorem State.onCourse_cntStart (s : State) (c : CourseId) (f : Course → Course) : (s.onCourse c f).cntStart = s.cntStart := rfl
@[simp] theorem State.onCourse_cntReq (s : State) (c : CourseId) (f : Course → Course) : (s.onCourse c f).cntReq = s.cntReq := rfl
@[simp] theorem State.onCourse_bank (s : State) (c : CourseId) (f : Course → Course) : (s.onCourse c f).bank = s.bank := rfl
@[simp] theorem State.onCourse_dumpLost (s : State) (c : CourseId) (f : Course → Course) : (s.onCourse c f).dumpLost = s.dumpLost := rfl
@[simp] theorem State.onCourse_harp (s : State) (c : CourseId) (f : Course → Course) : (s.onCourse c f).harp = s.harp := rfl
@[simp] theorem State.onCourse_load (s : State) (c : CourseId) (f : Course → Course) : (s.onCourse c f).load = s.load := rfl
@[simp] theorem State.onCourse_spi (s : State) (c : CourseId) (f : Course → Course) : (s.onCourse c f).spi = s.spi := rfl
@[simp] theorem State.onCourse_freeCtr (s : State) (c : CourseId) (f : Course → Course) : (s.onCourse c f).freeCtr = s.freeCtr := rfl
@[simp] theorem State.onCourse_pending (s : State) (c : CourseId) (f : Course → Course) : (s.onCourse c f).pending = s.pending := rfl

/-! ### onPort -/

@[simp] theorem State.onPort_nut (s : State) (p : PortId) (f : PortSt → PortSt) : (s.onPort p f).nut = s.nut := rfl
@[simp] theorem State.onPort_nutRun (s : State) (p : PortId) (f : PortSt → PortSt) : (s.onPort p f).nutRun = s.nutRun := rfl
@[simp] theorem State.onPort_replicas (s : State) (p : PortId) (f : PortSt → PortSt) : (s.onPort p f).replicas = s.replicas := rfl
@[simp] theorem State.onPort_power (s : State) (p : PortId) (f : PortSt → PortSt) : (s.onPort p f).power = s.power := rfl
@[simp] theorem State.onPort_irq (s : State) (p : PortId) (f : PortSt → PortSt) : (s.onPort p f).irq = s.irq := rfl
@[simp] theorem State.onPort_flight (s : State) (p : PortId) (f : PortSt → PortSt) : (s.onPort p f).flight = s.flight := rfl
@[simp] theorem State.onPort_regs (s : State) (p : PortId) (f : PortSt → PortSt) : (s.onPort p f).regs = s.regs := rfl
@[simp] theorem State.onPort_setNow (s : State) (p : PortId) (f : PortSt → PortSt) : (s.onPort p f).setNow = s.setNow := rfl
@[simp] theorem State.onPort_rdShadow (s : State) (p : PortId) (f : PortSt → PortSt) : (s.onPort p f).rdShadow = s.rdShadow := rfl
@[simp] theorem State.onPort_wrShadow (s : State) (p : PortId) (f : PortSt → PortSt) : (s.onPort p f).wrShadow = s.wrShadow := rfl
@[simp] theorem State.onPort_speedAt (s : State) (p : PortId) (f : PortSt → PortSt) : (s.onPort p f).speedAt = s.speedAt := rfl
@[simp] theorem State.onPort_tunings (s : State) (p : PortId) (f : PortSt → PortSt) : (s.onPort p f).tunings = s.tunings := rfl
@[simp] theorem State.onPort_leap (s : State) (p : PortId) (f : PortSt → PortSt) : (s.onPort p f).leap = s.leap := rfl
@[simp] theorem State.onPort_lines (s : State) (p : PortId) (f : PortSt → PortSt) : (s.onPort p f).lines = s.lines := rfl
@[simp] theorem State.onPort_picks (s : State) (p : PortId) (f : PortSt → PortSt) : (s.onPort p f).picks = s.picks := rfl
@[simp] theorem State.onPort_fmus (s : State) (p : PortId) (f : PortSt → PortSt) : (s.onPort p f).fmus = s.fmus := rfl
@[simp] theorem State.onPort_house (s : State) (p : PortId) (f : PortSt → PortSt) : (s.onPort p f).house = s.house := rfl
@[simp] theorem State.onPort_plucks (s : State) (p : PortId) (f : PortSt → PortSt) : (s.onPort p f).plucks = s.plucks := rfl
@[simp] theorem State.onPort_edges (s : State) (p : PortId) (f : PortSt → PortSt) : (s.onPort p f).edges = s.edges := rfl
@[simp] theorem State.onPort_reconvAt (s : State) (p : PortId) (f : PortSt → PortSt) : (s.onPort p f).reconvAt = s.reconvAt := rfl
@[simp] theorem State.onPort_panel (s : State) (p : PortId) (f : PortSt → PortSt) : (s.onPort p f).panel = s.panel := rfl
@[simp] theorem State.onPort_slots (s : State) (p : PortId) (f : PortSt → PortSt) : (s.onPort p f).slots = s.slots := rfl
@[simp] theorem State.onPort_bridge (s : State) (p : PortId) (f : PortSt → PortSt) : (s.onPort p f).bridge = s.bridge := rfl
@[simp] theorem State.onPort_synths (s : State) (p : PortId) (f : PortSt → PortSt) : (s.onPort p f).synths = s.synths := rfl
@[simp] theorem State.onPort_foutClk (s : State) (p : PortId) (f : PortSt → PortSt) : (s.onPort p f).foutClk = s.foutClk := rfl
@[simp] theorem State.onPort_irigCf (s : State) (p : PortId) (f : PortSt → PortSt) : (s.onPort p f).irigCf = s.irigCf := rfl
@[simp] theorem State.onPort_irig (s : State) (p : PortId) (f : PortSt → PortSt) : (s.onPort p f).irig = s.irig := rfl
@[simp] theorem State.onPort_tods (s : State) (p : PortId) (f : PortSt → PortSt) : (s.onPort p f).tods = s.tods := rfl
@[simp] theorem State.onPort_ctxs (s : State) (p : PortId) (f : PortSt → PortSt) : (s.onPort p f).ctxs = s.ctxs := rfl
@[simp] theorem State.onPort_quiet (s : State) (p : PortId) (f : PortSt → PortSt) : (s.onPort p f).quiet = s.quiet := rfl
@[simp] theorem State.onPort_lastIss (s : State) (p : PortId) (f : PortSt → PortSt) : (s.onPort p f).lastIss = s.lastIss := rfl
@[simp] theorem State.onPort_lastPc (s : State) (p : PortId) (f : PortSt → PortSt) : (s.onPort p f).lastPc = s.lastPc := rfl
@[simp] theorem State.onPort_courses (s : State) (p : PortId) (f : PortSt → PortSt) : (s.onPort p f).courses = s.courses := rfl
@[simp] theorem State.onPort_client (s : State) (p : PortId) (f : PortSt → PortSt) : (s.onPort p f).client = s.client := rfl
@[simp] theorem State.onPort_bad (s : State) (p : PortId) (f : PortSt → PortSt) : (s.onPort p f).bad = s.bad := rfl
@[simp] theorem State.onPort_i2cRun (s : State) (p : PortId) (f : PortSt → PortSt) : (s.onPort p f).i2cRun = s.i2cRun := rfl
@[simp] theorem State.onPort_txRings (s : State) (p : PortId) (f : PortSt → PortSt) : (s.onPort p f).txRings = s.txRings := rfl
@[simp] theorem State.onPort_rxLost (s : State) (p : PortId) (f : PortSt → PortSt) : (s.onPort p f).rxLost = s.rxLost := rfl
@[simp] theorem State.onPort_keys (s : State) (p : PortId) (f : PortSt → PortSt) : (s.onPort p f).keys = s.keys := rfl
@[simp] theorem State.onPort_hostMem (s : State) (p : PortId) (f : PortSt → PortSt) : (s.onPort p f).hostMem = s.hostMem := rfl
@[simp] theorem State.onPort_counters (s : State) (p : PortId) (f : PortSt → PortSt) : (s.onPort p f).counters = s.counters := rfl
@[simp] theorem State.onPort_cntStart (s : State) (p : PortId) (f : PortSt → PortSt) : (s.onPort p f).cntStart = s.cntStart := rfl
@[simp] theorem State.onPort_cntReq (s : State) (p : PortId) (f : PortSt → PortSt) : (s.onPort p f).cntReq = s.cntReq := rfl
@[simp] theorem State.onPort_bank (s : State) (p : PortId) (f : PortSt → PortSt) : (s.onPort p f).bank = s.bank := rfl
@[simp] theorem State.onPort_dumpLost (s : State) (p : PortId) (f : PortSt → PortSt) : (s.onPort p f).dumpLost = s.dumpLost := rfl
@[simp] theorem State.onPort_harp (s : State) (p : PortId) (f : PortSt → PortSt) : (s.onPort p f).harp = s.harp := rfl
@[simp] theorem State.onPort_load (s : State) (p : PortId) (f : PortSt → PortSt) : (s.onPort p f).load = s.load := rfl
@[simp] theorem State.onPort_spi (s : State) (p : PortId) (f : PortSt → PortSt) : (s.onPort p f).spi = s.spi := rfl
@[simp] theorem State.onPort_freeCtr (s : State) (p : PortId) (f : PortSt → PortSt) : (s.onPort p f).freeCtr = s.freeCtr := rfl
@[simp] theorem State.onPort_pending (s : State) (p : PortId) (f : PortSt → PortSt) : (s.onPort p f).pending = s.pending := rfl

/-! ### onHarp -/

@[simp] theorem State.onHarp_nut (s : State) (f : Harp → Harp) : (s.onHarp f).nut = s.nut := rfl
@[simp] theorem State.onHarp_nutRun (s : State) (f : Harp → Harp) : (s.onHarp f).nutRun = s.nutRun := rfl
@[simp] theorem State.onHarp_replicas (s : State) (f : Harp → Harp) : (s.onHarp f).replicas = s.replicas := rfl
@[simp] theorem State.onHarp_power (s : State) (f : Harp → Harp) : (s.onHarp f).power = s.power := rfl
@[simp] theorem State.onHarp_irq (s : State) (f : Harp → Harp) : (s.onHarp f).irq = s.irq := rfl
@[simp] theorem State.onHarp_flight (s : State) (f : Harp → Harp) : (s.onHarp f).flight = s.flight := rfl
@[simp] theorem State.onHarp_regs (s : State) (f : Harp → Harp) : (s.onHarp f).regs = s.regs := rfl
@[simp] theorem State.onHarp_setNow (s : State) (f : Harp → Harp) : (s.onHarp f).setNow = s.setNow := rfl
@[simp] theorem State.onHarp_rdShadow (s : State) (f : Harp → Harp) : (s.onHarp f).rdShadow = s.rdShadow := rfl
@[simp] theorem State.onHarp_wrShadow (s : State) (f : Harp → Harp) : (s.onHarp f).wrShadow = s.wrShadow := rfl
@[simp] theorem State.onHarp_speedAt (s : State) (f : Harp → Harp) : (s.onHarp f).speedAt = s.speedAt := rfl
@[simp] theorem State.onHarp_tunings (s : State) (f : Harp → Harp) : (s.onHarp f).tunings = s.tunings := rfl
@[simp] theorem State.onHarp_leap (s : State) (f : Harp → Harp) : (s.onHarp f).leap = s.leap := rfl
@[simp] theorem State.onHarp_lines (s : State) (f : Harp → Harp) : (s.onHarp f).lines = s.lines := rfl
@[simp] theorem State.onHarp_picks (s : State) (f : Harp → Harp) : (s.onHarp f).picks = s.picks := rfl
@[simp] theorem State.onHarp_fmus (s : State) (f : Harp → Harp) : (s.onHarp f).fmus = s.fmus := rfl
@[simp] theorem State.onHarp_house (s : State) (f : Harp → Harp) : (s.onHarp f).house = s.house := rfl
@[simp] theorem State.onHarp_plucks (s : State) (f : Harp → Harp) : (s.onHarp f).plucks = s.plucks := rfl
@[simp] theorem State.onHarp_edges (s : State) (f : Harp → Harp) : (s.onHarp f).edges = s.edges := rfl
@[simp] theorem State.onHarp_reconvAt (s : State) (f : Harp → Harp) : (s.onHarp f).reconvAt = s.reconvAt := rfl
@[simp] theorem State.onHarp_panel (s : State) (f : Harp → Harp) : (s.onHarp f).panel = s.panel := rfl
@[simp] theorem State.onHarp_slots (s : State) (f : Harp → Harp) : (s.onHarp f).slots = s.slots := rfl
@[simp] theorem State.onHarp_bridge (s : State) (f : Harp → Harp) : (s.onHarp f).bridge = s.bridge := rfl
@[simp] theorem State.onHarp_synths (s : State) (f : Harp → Harp) : (s.onHarp f).synths = s.synths := rfl
@[simp] theorem State.onHarp_foutClk (s : State) (f : Harp → Harp) : (s.onHarp f).foutClk = s.foutClk := rfl
@[simp] theorem State.onHarp_irigCf (s : State) (f : Harp → Harp) : (s.onHarp f).irigCf = s.irigCf := rfl
@[simp] theorem State.onHarp_irig (s : State) (f : Harp → Harp) : (s.onHarp f).irig = s.irig := rfl
@[simp] theorem State.onHarp_tods (s : State) (f : Harp → Harp) : (s.onHarp f).tods = s.tods := rfl
@[simp] theorem State.onHarp_ctxs (s : State) (f : Harp → Harp) : (s.onHarp f).ctxs = s.ctxs := rfl
@[simp] theorem State.onHarp_quiet (s : State) (f : Harp → Harp) : (s.onHarp f).quiet = s.quiet := rfl
@[simp] theorem State.onHarp_lastIss (s : State) (f : Harp → Harp) : (s.onHarp f).lastIss = s.lastIss := rfl
@[simp] theorem State.onHarp_lastPc (s : State) (f : Harp → Harp) : (s.onHarp f).lastPc = s.lastPc := rfl
@[simp] theorem State.onHarp_courses (s : State) (f : Harp → Harp) : (s.onHarp f).courses = s.courses := rfl
@[simp] theorem State.onHarp_client (s : State) (f : Harp → Harp) : (s.onHarp f).client = s.client := rfl
@[simp] theorem State.onHarp_bad (s : State) (f : Harp → Harp) : (s.onHarp f).bad = s.bad := rfl
@[simp] theorem State.onHarp_ports (s : State) (f : Harp → Harp) : (s.onHarp f).ports = s.ports := rfl
@[simp] theorem State.onHarp_i2cRun (s : State) (f : Harp → Harp) : (s.onHarp f).i2cRun = s.i2cRun := rfl
@[simp] theorem State.onHarp_txRings (s : State) (f : Harp → Harp) : (s.onHarp f).txRings = s.txRings := rfl
@[simp] theorem State.onHarp_rxLost (s : State) (f : Harp → Harp) : (s.onHarp f).rxLost = s.rxLost := rfl
@[simp] theorem State.onHarp_keys (s : State) (f : Harp → Harp) : (s.onHarp f).keys = s.keys := rfl
@[simp] theorem State.onHarp_hostMem (s : State) (f : Harp → Harp) : (s.onHarp f).hostMem = s.hostMem := rfl
@[simp] theorem State.onHarp_counters (s : State) (f : Harp → Harp) : (s.onHarp f).counters = s.counters := rfl
@[simp] theorem State.onHarp_cntStart (s : State) (f : Harp → Harp) : (s.onHarp f).cntStart = s.cntStart := rfl
@[simp] theorem State.onHarp_cntReq (s : State) (f : Harp → Harp) : (s.onHarp f).cntReq = s.cntReq := rfl
@[simp] theorem State.onHarp_bank (s : State) (f : Harp → Harp) : (s.onHarp f).bank = s.bank := rfl
@[simp] theorem State.onHarp_dumpLost (s : State) (f : Harp → Harp) : (s.onHarp f).dumpLost = s.dumpLost := rfl
@[simp] theorem State.onHarp_load (s : State) (f : Harp → Harp) : (s.onHarp f).load = s.load := rfl
@[simp] theorem State.onHarp_spi (s : State) (f : Harp → Harp) : (s.onHarp f).spi = s.spi := rfl
@[simp] theorem State.onHarp_freeCtr (s : State) (f : Harp → Harp) : (s.onHarp f).freeCtr = s.freeCtr := rfl
@[simp] theorem State.onHarp_pending (s : State) (f : Harp → Harp) : (s.onHarp f).pending = s.pending := rfl

/-! ### brg -/

@[simp] theorem State.brg_nut (s : State) (f : Bridge → Bridge) : (s.brg f).nut = s.nut := rfl
@[simp] theorem State.brg_nutRun (s : State) (f : Bridge → Bridge) : (s.brg f).nutRun = s.nutRun := rfl
@[simp] theorem State.brg_replicas (s : State) (f : Bridge → Bridge) : (s.brg f).replicas = s.replicas := rfl
@[simp] theorem State.brg_power (s : State) (f : Bridge → Bridge) : (s.brg f).power = s.power := rfl
@[simp] theorem State.brg_irq (s : State) (f : Bridge → Bridge) : (s.brg f).irq = s.irq := rfl
@[simp] theorem State.brg_flight (s : State) (f : Bridge → Bridge) : (s.brg f).flight = s.flight := rfl
@[simp] theorem State.brg_regs (s : State) (f : Bridge → Bridge) : (s.brg f).regs = s.regs := rfl
@[simp] theorem State.brg_setNow (s : State) (f : Bridge → Bridge) : (s.brg f).setNow = s.setNow := rfl
@[simp] theorem State.brg_rdShadow (s : State) (f : Bridge → Bridge) : (s.brg f).rdShadow = s.rdShadow := rfl
@[simp] theorem State.brg_wrShadow (s : State) (f : Bridge → Bridge) : (s.brg f).wrShadow = s.wrShadow := rfl
@[simp] theorem State.brg_speedAt (s : State) (f : Bridge → Bridge) : (s.brg f).speedAt = s.speedAt := rfl
@[simp] theorem State.brg_tunings (s : State) (f : Bridge → Bridge) : (s.brg f).tunings = s.tunings := rfl
@[simp] theorem State.brg_leap (s : State) (f : Bridge → Bridge) : (s.brg f).leap = s.leap := rfl
@[simp] theorem State.brg_lines (s : State) (f : Bridge → Bridge) : (s.brg f).lines = s.lines := rfl
@[simp] theorem State.brg_picks (s : State) (f : Bridge → Bridge) : (s.brg f).picks = s.picks := rfl
@[simp] theorem State.brg_fmus (s : State) (f : Bridge → Bridge) : (s.brg f).fmus = s.fmus := rfl
@[simp] theorem State.brg_house (s : State) (f : Bridge → Bridge) : (s.brg f).house = s.house := rfl
@[simp] theorem State.brg_plucks (s : State) (f : Bridge → Bridge) : (s.brg f).plucks = s.plucks := rfl
@[simp] theorem State.brg_edges (s : State) (f : Bridge → Bridge) : (s.brg f).edges = s.edges := rfl
@[simp] theorem State.brg_reconvAt (s : State) (f : Bridge → Bridge) : (s.brg f).reconvAt = s.reconvAt := rfl
@[simp] theorem State.brg_panel (s : State) (f : Bridge → Bridge) : (s.brg f).panel = s.panel := rfl
@[simp] theorem State.brg_slots (s : State) (f : Bridge → Bridge) : (s.brg f).slots = s.slots := rfl
@[simp] theorem State.brg_synths (s : State) (f : Bridge → Bridge) : (s.brg f).synths = s.synths := rfl
@[simp] theorem State.brg_foutClk (s : State) (f : Bridge → Bridge) : (s.brg f).foutClk = s.foutClk := rfl
@[simp] theorem State.brg_irigCf (s : State) (f : Bridge → Bridge) : (s.brg f).irigCf = s.irigCf := rfl
@[simp] theorem State.brg_irig (s : State) (f : Bridge → Bridge) : (s.brg f).irig = s.irig := rfl
@[simp] theorem State.brg_tods (s : State) (f : Bridge → Bridge) : (s.brg f).tods = s.tods := rfl
@[simp] theorem State.brg_ctxs (s : State) (f : Bridge → Bridge) : (s.brg f).ctxs = s.ctxs := rfl
@[simp] theorem State.brg_quiet (s : State) (f : Bridge → Bridge) : (s.brg f).quiet = s.quiet := rfl
@[simp] theorem State.brg_lastIss (s : State) (f : Bridge → Bridge) : (s.brg f).lastIss = s.lastIss := rfl
@[simp] theorem State.brg_lastPc (s : State) (f : Bridge → Bridge) : (s.brg f).lastPc = s.lastPc := rfl
@[simp] theorem State.brg_courses (s : State) (f : Bridge → Bridge) : (s.brg f).courses = s.courses := rfl
@[simp] theorem State.brg_client (s : State) (f : Bridge → Bridge) : (s.brg f).client = s.client := rfl
@[simp] theorem State.brg_bad (s : State) (f : Bridge → Bridge) : (s.brg f).bad = s.bad := rfl
@[simp] theorem State.brg_ports (s : State) (f : Bridge → Bridge) : (s.brg f).ports = s.ports := rfl
@[simp] theorem State.brg_i2cRun (s : State) (f : Bridge → Bridge) : (s.brg f).i2cRun = s.i2cRun := rfl
@[simp] theorem State.brg_txRings (s : State) (f : Bridge → Bridge) : (s.brg f).txRings = s.txRings := rfl
@[simp] theorem State.brg_rxLost (s : State) (f : Bridge → Bridge) : (s.brg f).rxLost = s.rxLost := rfl
@[simp] theorem State.brg_keys (s : State) (f : Bridge → Bridge) : (s.brg f).keys = s.keys := rfl
@[simp] theorem State.brg_hostMem (s : State) (f : Bridge → Bridge) : (s.brg f).hostMem = s.hostMem := rfl
@[simp] theorem State.brg_counters (s : State) (f : Bridge → Bridge) : (s.brg f).counters = s.counters := rfl
@[simp] theorem State.brg_cntStart (s : State) (f : Bridge → Bridge) : (s.brg f).cntStart = s.cntStart := rfl
@[simp] theorem State.brg_cntReq (s : State) (f : Bridge → Bridge) : (s.brg f).cntReq = s.cntReq := rfl
@[simp] theorem State.brg_bank (s : State) (f : Bridge → Bridge) : (s.brg f).bank = s.bank := rfl
@[simp] theorem State.brg_dumpLost (s : State) (f : Bridge → Bridge) : (s.brg f).dumpLost = s.dumpLost := rfl
@[simp] theorem State.brg_harp (s : State) (f : Bridge → Bridge) : (s.brg f).harp = s.harp := rfl
@[simp] theorem State.brg_load (s : State) (f : Bridge → Bridge) : (s.brg f).load = s.load := rfl
@[simp] theorem State.brg_spi (s : State) (f : Bridge → Bridge) : (s.brg f).spi = s.spi := rfl
@[simp] theorem State.brg_freeCtr (s : State) (f : Bridge → Bridge) : (s.brg f).freeCtr = s.freeCtr := rfl
@[simp] theorem State.brg_pending (s : State) (f : Bridge → Bridge) : (s.brg f).pending = s.pending := rfl

/-! ### slot -/

@[simp] theorem State.slot_nut (s : State) (r : SlotId) (f : Slot → Slot) : (s.slot r f).nut = s.nut := rfl
@[simp] theorem State.slot_nutRun (s : State) (r : SlotId) (f : Slot → Slot) : (s.slot r f).nutRun = s.nutRun := rfl
@[simp] theorem State.slot_replicas (s : State) (r : SlotId) (f : Slot → Slot) : (s.slot r f).replicas = s.replicas := rfl
@[simp] theorem State.slot_power (s : State) (r : SlotId) (f : Slot → Slot) : (s.slot r f).power = s.power := rfl
@[simp] theorem State.slot_irq (s : State) (r : SlotId) (f : Slot → Slot) : (s.slot r f).irq = s.irq := rfl
@[simp] theorem State.slot_flight (s : State) (r : SlotId) (f : Slot → Slot) : (s.slot r f).flight = s.flight := rfl
@[simp] theorem State.slot_regs (s : State) (r : SlotId) (f : Slot → Slot) : (s.slot r f).regs = s.regs := rfl
@[simp] theorem State.slot_setNow (s : State) (r : SlotId) (f : Slot → Slot) : (s.slot r f).setNow = s.setNow := rfl
@[simp] theorem State.slot_rdShadow (s : State) (r : SlotId) (f : Slot → Slot) : (s.slot r f).rdShadow = s.rdShadow := rfl
@[simp] theorem State.slot_wrShadow (s : State) (r : SlotId) (f : Slot → Slot) : (s.slot r f).wrShadow = s.wrShadow := rfl
@[simp] theorem State.slot_speedAt (s : State) (r : SlotId) (f : Slot → Slot) : (s.slot r f).speedAt = s.speedAt := rfl
@[simp] theorem State.slot_tunings (s : State) (r : SlotId) (f : Slot → Slot) : (s.slot r f).tunings = s.tunings := rfl
@[simp] theorem State.slot_leap (s : State) (r : SlotId) (f : Slot → Slot) : (s.slot r f).leap = s.leap := rfl
@[simp] theorem State.slot_lines (s : State) (r : SlotId) (f : Slot → Slot) : (s.slot r f).lines = s.lines := rfl
@[simp] theorem State.slot_picks (s : State) (r : SlotId) (f : Slot → Slot) : (s.slot r f).picks = s.picks := rfl
@[simp] theorem State.slot_fmus (s : State) (r : SlotId) (f : Slot → Slot) : (s.slot r f).fmus = s.fmus := rfl
@[simp] theorem State.slot_house (s : State) (r : SlotId) (f : Slot → Slot) : (s.slot r f).house = s.house := rfl
@[simp] theorem State.slot_plucks (s : State) (r : SlotId) (f : Slot → Slot) : (s.slot r f).plucks = s.plucks := rfl
@[simp] theorem State.slot_edges (s : State) (r : SlotId) (f : Slot → Slot) : (s.slot r f).edges = s.edges := rfl
@[simp] theorem State.slot_reconvAt (s : State) (r : SlotId) (f : Slot → Slot) : (s.slot r f).reconvAt = s.reconvAt := rfl
@[simp] theorem State.slot_panel (s : State) (r : SlotId) (f : Slot → Slot) : (s.slot r f).panel = s.panel := rfl
@[simp] theorem State.slot_bridge (s : State) (r : SlotId) (f : Slot → Slot) : (s.slot r f).bridge = s.bridge := rfl
@[simp] theorem State.slot_synths (s : State) (r : SlotId) (f : Slot → Slot) : (s.slot r f).synths = s.synths := rfl
@[simp] theorem State.slot_foutClk (s : State) (r : SlotId) (f : Slot → Slot) : (s.slot r f).foutClk = s.foutClk := rfl
@[simp] theorem State.slot_irigCf (s : State) (r : SlotId) (f : Slot → Slot) : (s.slot r f).irigCf = s.irigCf := rfl
@[simp] theorem State.slot_irig (s : State) (r : SlotId) (f : Slot → Slot) : (s.slot r f).irig = s.irig := rfl
@[simp] theorem State.slot_tods (s : State) (r : SlotId) (f : Slot → Slot) : (s.slot r f).tods = s.tods := rfl
@[simp] theorem State.slot_ctxs (s : State) (r : SlotId) (f : Slot → Slot) : (s.slot r f).ctxs = s.ctxs := rfl
@[simp] theorem State.slot_quiet (s : State) (r : SlotId) (f : Slot → Slot) : (s.slot r f).quiet = s.quiet := rfl
@[simp] theorem State.slot_lastIss (s : State) (r : SlotId) (f : Slot → Slot) : (s.slot r f).lastIss = s.lastIss := rfl
@[simp] theorem State.slot_lastPc (s : State) (r : SlotId) (f : Slot → Slot) : (s.slot r f).lastPc = s.lastPc := rfl
@[simp] theorem State.slot_courses (s : State) (r : SlotId) (f : Slot → Slot) : (s.slot r f).courses = s.courses := rfl
@[simp] theorem State.slot_client (s : State) (r : SlotId) (f : Slot → Slot) : (s.slot r f).client = s.client := rfl
@[simp] theorem State.slot_bad (s : State) (r : SlotId) (f : Slot → Slot) : (s.slot r f).bad = s.bad := rfl
@[simp] theorem State.slot_ports (s : State) (r : SlotId) (f : Slot → Slot) : (s.slot r f).ports = s.ports := rfl
@[simp] theorem State.slot_i2cRun (s : State) (r : SlotId) (f : Slot → Slot) : (s.slot r f).i2cRun = s.i2cRun := rfl
@[simp] theorem State.slot_txRings (s : State) (r : SlotId) (f : Slot → Slot) : (s.slot r f).txRings = s.txRings := rfl
@[simp] theorem State.slot_rxLost (s : State) (r : SlotId) (f : Slot → Slot) : (s.slot r f).rxLost = s.rxLost := rfl
@[simp] theorem State.slot_keys (s : State) (r : SlotId) (f : Slot → Slot) : (s.slot r f).keys = s.keys := rfl
@[simp] theorem State.slot_hostMem (s : State) (r : SlotId) (f : Slot → Slot) : (s.slot r f).hostMem = s.hostMem := rfl
@[simp] theorem State.slot_counters (s : State) (r : SlotId) (f : Slot → Slot) : (s.slot r f).counters = s.counters := rfl
@[simp] theorem State.slot_cntStart (s : State) (r : SlotId) (f : Slot → Slot) : (s.slot r f).cntStart = s.cntStart := rfl
@[simp] theorem State.slot_cntReq (s : State) (r : SlotId) (f : Slot → Slot) : (s.slot r f).cntReq = s.cntReq := rfl
@[simp] theorem State.slot_bank (s : State) (r : SlotId) (f : Slot → Slot) : (s.slot r f).bank = s.bank := rfl
@[simp] theorem State.slot_dumpLost (s : State) (r : SlotId) (f : Slot → Slot) : (s.slot r f).dumpLost = s.dumpLost := rfl
@[simp] theorem State.slot_harp (s : State) (r : SlotId) (f : Slot → Slot) : (s.slot r f).harp = s.harp := rfl
@[simp] theorem State.slot_load (s : State) (r : SlotId) (f : Slot → Slot) : (s.slot r f).load = s.load := rfl
@[simp] theorem State.slot_spi (s : State) (r : SlotId) (f : Slot → Slot) : (s.slot r f).spi = s.spi := rfl
@[simp] theorem State.slot_freeCtr (s : State) (r : SlotId) (f : Slot → Slot) : (s.slot r f).freeCtr = s.freeCtr := rfl
@[simp] theorem State.slot_pending (s : State) (r : SlotId) (f : Slot → Slot) : (s.slot r f).pending = s.pending := rfl

/-! ### setPick -/

@[simp] theorem State.setPick_nut (s : State) (p : PickId) (x : Pick) : (s.setPick p x).nut = s.nut := rfl
@[simp] theorem State.setPick_nutRun (s : State) (p : PickId) (x : Pick) : (s.setPick p x).nutRun = s.nutRun := rfl
@[simp] theorem State.setPick_replicas (s : State) (p : PickId) (x : Pick) : (s.setPick p x).replicas = s.replicas := rfl
@[simp] theorem State.setPick_power (s : State) (p : PickId) (x : Pick) : (s.setPick p x).power = s.power := rfl
@[simp] theorem State.setPick_irq (s : State) (p : PickId) (x : Pick) : (s.setPick p x).irq = s.irq := rfl
@[simp] theorem State.setPick_flight (s : State) (p : PickId) (x : Pick) : (s.setPick p x).flight = s.flight := rfl
@[simp] theorem State.setPick_regs (s : State) (p : PickId) (x : Pick) : (s.setPick p x).regs = s.regs := rfl
@[simp] theorem State.setPick_setNow (s : State) (p : PickId) (x : Pick) : (s.setPick p x).setNow = s.setNow := rfl
@[simp] theorem State.setPick_rdShadow (s : State) (p : PickId) (x : Pick) : (s.setPick p x).rdShadow = s.rdShadow := rfl
@[simp] theorem State.setPick_wrShadow (s : State) (p : PickId) (x : Pick) : (s.setPick p x).wrShadow = s.wrShadow := rfl
@[simp] theorem State.setPick_speedAt (s : State) (p : PickId) (x : Pick) : (s.setPick p x).speedAt = s.speedAt := rfl
@[simp] theorem State.setPick_tunings (s : State) (p : PickId) (x : Pick) : (s.setPick p x).tunings = s.tunings := rfl
@[simp] theorem State.setPick_leap (s : State) (p : PickId) (x : Pick) : (s.setPick p x).leap = s.leap := rfl
@[simp] theorem State.setPick_lines (s : State) (p : PickId) (x : Pick) : (s.setPick p x).lines = s.lines := rfl
@[simp] theorem State.setPick_fmus (s : State) (p : PickId) (x : Pick) : (s.setPick p x).fmus = s.fmus := rfl
@[simp] theorem State.setPick_house (s : State) (p : PickId) (x : Pick) : (s.setPick p x).house = s.house := rfl
@[simp] theorem State.setPick_plucks (s : State) (p : PickId) (x : Pick) : (s.setPick p x).plucks = s.plucks := rfl
@[simp] theorem State.setPick_edges (s : State) (p : PickId) (x : Pick) : (s.setPick p x).edges = s.edges := rfl
@[simp] theorem State.setPick_reconvAt (s : State) (p : PickId) (x : Pick) : (s.setPick p x).reconvAt = s.reconvAt := rfl
@[simp] theorem State.setPick_panel (s : State) (p : PickId) (x : Pick) : (s.setPick p x).panel = s.panel := rfl
@[simp] theorem State.setPick_slots (s : State) (p : PickId) (x : Pick) : (s.setPick p x).slots = s.slots := rfl
@[simp] theorem State.setPick_bridge (s : State) (p : PickId) (x : Pick) : (s.setPick p x).bridge = s.bridge := rfl
@[simp] theorem State.setPick_synths (s : State) (p : PickId) (x : Pick) : (s.setPick p x).synths = s.synths := rfl
@[simp] theorem State.setPick_foutClk (s : State) (p : PickId) (x : Pick) : (s.setPick p x).foutClk = s.foutClk := rfl
@[simp] theorem State.setPick_irigCf (s : State) (p : PickId) (x : Pick) : (s.setPick p x).irigCf = s.irigCf := rfl
@[simp] theorem State.setPick_irig (s : State) (p : PickId) (x : Pick) : (s.setPick p x).irig = s.irig := rfl
@[simp] theorem State.setPick_tods (s : State) (p : PickId) (x : Pick) : (s.setPick p x).tods = s.tods := rfl
@[simp] theorem State.setPick_ctxs (s : State) (p : PickId) (x : Pick) : (s.setPick p x).ctxs = s.ctxs := rfl
@[simp] theorem State.setPick_quiet (s : State) (p : PickId) (x : Pick) : (s.setPick p x).quiet = s.quiet := rfl
@[simp] theorem State.setPick_lastIss (s : State) (p : PickId) (x : Pick) : (s.setPick p x).lastIss = s.lastIss := rfl
@[simp] theorem State.setPick_lastPc (s : State) (p : PickId) (x : Pick) : (s.setPick p x).lastPc = s.lastPc := rfl
@[simp] theorem State.setPick_courses (s : State) (p : PickId) (x : Pick) : (s.setPick p x).courses = s.courses := rfl
@[simp] theorem State.setPick_client (s : State) (p : PickId) (x : Pick) : (s.setPick p x).client = s.client := rfl
@[simp] theorem State.setPick_bad (s : State) (p : PickId) (x : Pick) : (s.setPick p x).bad = s.bad := rfl
@[simp] theorem State.setPick_ports (s : State) (p : PickId) (x : Pick) : (s.setPick p x).ports = s.ports := rfl
@[simp] theorem State.setPick_i2cRun (s : State) (p : PickId) (x : Pick) : (s.setPick p x).i2cRun = s.i2cRun := rfl
@[simp] theorem State.setPick_txRings (s : State) (p : PickId) (x : Pick) : (s.setPick p x).txRings = s.txRings := rfl
@[simp] theorem State.setPick_rxLost (s : State) (p : PickId) (x : Pick) : (s.setPick p x).rxLost = s.rxLost := rfl
@[simp] theorem State.setPick_keys (s : State) (p : PickId) (x : Pick) : (s.setPick p x).keys = s.keys := rfl
@[simp] theorem State.setPick_hostMem (s : State) (p : PickId) (x : Pick) : (s.setPick p x).hostMem = s.hostMem := rfl
@[simp] theorem State.setPick_counters (s : State) (p : PickId) (x : Pick) : (s.setPick p x).counters = s.counters := rfl
@[simp] theorem State.setPick_cntStart (s : State) (p : PickId) (x : Pick) : (s.setPick p x).cntStart = s.cntStart := rfl
@[simp] theorem State.setPick_cntReq (s : State) (p : PickId) (x : Pick) : (s.setPick p x).cntReq = s.cntReq := rfl
@[simp] theorem State.setPick_bank (s : State) (p : PickId) (x : Pick) : (s.setPick p x).bank = s.bank := rfl
@[simp] theorem State.setPick_dumpLost (s : State) (p : PickId) (x : Pick) : (s.setPick p x).dumpLost = s.dumpLost := rfl
@[simp] theorem State.setPick_harp (s : State) (p : PickId) (x : Pick) : (s.setPick p x).harp = s.harp := rfl
@[simp] theorem State.setPick_load (s : State) (p : PickId) (x : Pick) : (s.setPick p x).load = s.load := rfl
@[simp] theorem State.setPick_spi (s : State) (p : PickId) (x : Pick) : (s.setPick p x).spi = s.spi := rfl
@[simp] theorem State.setPick_freeCtr (s : State) (p : PickId) (x : Pick) : (s.setPick p x).freeCtr = s.freeCtr := rfl
@[simp] theorem State.setPick_pending (s : State) (p : PickId) (x : Pick) : (s.setPick p x).pending = s.pending := rfl

/-! ### setFmu -/

@[simp] theorem State.setFmu_nut (s : State) (u : FmuId) (x : Fmu) : (s.setFmu u x).nut = s.nut := rfl
@[simp] theorem State.setFmu_nutRun (s : State) (u : FmuId) (x : Fmu) : (s.setFmu u x).nutRun = s.nutRun := rfl
@[simp] theorem State.setFmu_replicas (s : State) (u : FmuId) (x : Fmu) : (s.setFmu u x).replicas = s.replicas := rfl
@[simp] theorem State.setFmu_power (s : State) (u : FmuId) (x : Fmu) : (s.setFmu u x).power = s.power := rfl
@[simp] theorem State.setFmu_irq (s : State) (u : FmuId) (x : Fmu) : (s.setFmu u x).irq = s.irq := rfl
@[simp] theorem State.setFmu_flight (s : State) (u : FmuId) (x : Fmu) : (s.setFmu u x).flight = s.flight := rfl
@[simp] theorem State.setFmu_regs (s : State) (u : FmuId) (x : Fmu) : (s.setFmu u x).regs = s.regs := rfl
@[simp] theorem State.setFmu_setNow (s : State) (u : FmuId) (x : Fmu) : (s.setFmu u x).setNow = s.setNow := rfl
@[simp] theorem State.setFmu_rdShadow (s : State) (u : FmuId) (x : Fmu) : (s.setFmu u x).rdShadow = s.rdShadow := rfl
@[simp] theorem State.setFmu_wrShadow (s : State) (u : FmuId) (x : Fmu) : (s.setFmu u x).wrShadow = s.wrShadow := rfl
@[simp] theorem State.setFmu_speedAt (s : State) (u : FmuId) (x : Fmu) : (s.setFmu u x).speedAt = s.speedAt := rfl
@[simp] theorem State.setFmu_tunings (s : State) (u : FmuId) (x : Fmu) : (s.setFmu u x).tunings = s.tunings := rfl
@[simp] theorem State.setFmu_leap (s : State) (u : FmuId) (x : Fmu) : (s.setFmu u x).leap = s.leap := rfl
@[simp] theorem State.setFmu_lines (s : State) (u : FmuId) (x : Fmu) : (s.setFmu u x).lines = s.lines := rfl
@[simp] theorem State.setFmu_picks (s : State) (u : FmuId) (x : Fmu) : (s.setFmu u x).picks = s.picks := rfl
@[simp] theorem State.setFmu_house (s : State) (u : FmuId) (x : Fmu) : (s.setFmu u x).house = s.house := rfl
@[simp] theorem State.setFmu_plucks (s : State) (u : FmuId) (x : Fmu) : (s.setFmu u x).plucks = s.plucks := rfl
@[simp] theorem State.setFmu_edges (s : State) (u : FmuId) (x : Fmu) : (s.setFmu u x).edges = s.edges := rfl
@[simp] theorem State.setFmu_reconvAt (s : State) (u : FmuId) (x : Fmu) : (s.setFmu u x).reconvAt = s.reconvAt := rfl
@[simp] theorem State.setFmu_panel (s : State) (u : FmuId) (x : Fmu) : (s.setFmu u x).panel = s.panel := rfl
@[simp] theorem State.setFmu_slots (s : State) (u : FmuId) (x : Fmu) : (s.setFmu u x).slots = s.slots := rfl
@[simp] theorem State.setFmu_bridge (s : State) (u : FmuId) (x : Fmu) : (s.setFmu u x).bridge = s.bridge := rfl
@[simp] theorem State.setFmu_synths (s : State) (u : FmuId) (x : Fmu) : (s.setFmu u x).synths = s.synths := rfl
@[simp] theorem State.setFmu_foutClk (s : State) (u : FmuId) (x : Fmu) : (s.setFmu u x).foutClk = s.foutClk := rfl
@[simp] theorem State.setFmu_irigCf (s : State) (u : FmuId) (x : Fmu) : (s.setFmu u x).irigCf = s.irigCf := rfl
@[simp] theorem State.setFmu_irig (s : State) (u : FmuId) (x : Fmu) : (s.setFmu u x).irig = s.irig := rfl
@[simp] theorem State.setFmu_tods (s : State) (u : FmuId) (x : Fmu) : (s.setFmu u x).tods = s.tods := rfl
@[simp] theorem State.setFmu_ctxs (s : State) (u : FmuId) (x : Fmu) : (s.setFmu u x).ctxs = s.ctxs := rfl
@[simp] theorem State.setFmu_quiet (s : State) (u : FmuId) (x : Fmu) : (s.setFmu u x).quiet = s.quiet := rfl
@[simp] theorem State.setFmu_lastIss (s : State) (u : FmuId) (x : Fmu) : (s.setFmu u x).lastIss = s.lastIss := rfl
@[simp] theorem State.setFmu_lastPc (s : State) (u : FmuId) (x : Fmu) : (s.setFmu u x).lastPc = s.lastPc := rfl
@[simp] theorem State.setFmu_courses (s : State) (u : FmuId) (x : Fmu) : (s.setFmu u x).courses = s.courses := rfl
@[simp] theorem State.setFmu_client (s : State) (u : FmuId) (x : Fmu) : (s.setFmu u x).client = s.client := rfl
@[simp] theorem State.setFmu_bad (s : State) (u : FmuId) (x : Fmu) : (s.setFmu u x).bad = s.bad := rfl
@[simp] theorem State.setFmu_ports (s : State) (u : FmuId) (x : Fmu) : (s.setFmu u x).ports = s.ports := rfl
@[simp] theorem State.setFmu_i2cRun (s : State) (u : FmuId) (x : Fmu) : (s.setFmu u x).i2cRun = s.i2cRun := rfl
@[simp] theorem State.setFmu_txRings (s : State) (u : FmuId) (x : Fmu) : (s.setFmu u x).txRings = s.txRings := rfl
@[simp] theorem State.setFmu_rxLost (s : State) (u : FmuId) (x : Fmu) : (s.setFmu u x).rxLost = s.rxLost := rfl
@[simp] theorem State.setFmu_keys (s : State) (u : FmuId) (x : Fmu) : (s.setFmu u x).keys = s.keys := rfl
@[simp] theorem State.setFmu_hostMem (s : State) (u : FmuId) (x : Fmu) : (s.setFmu u x).hostMem = s.hostMem := rfl
@[simp] theorem State.setFmu_counters (s : State) (u : FmuId) (x : Fmu) : (s.setFmu u x).counters = s.counters := rfl
@[simp] theorem State.setFmu_cntStart (s : State) (u : FmuId) (x : Fmu) : (s.setFmu u x).cntStart = s.cntStart := rfl
@[simp] theorem State.setFmu_cntReq (s : State) (u : FmuId) (x : Fmu) : (s.setFmu u x).cntReq = s.cntReq := rfl
@[simp] theorem State.setFmu_bank (s : State) (u : FmuId) (x : Fmu) : (s.setFmu u x).bank = s.bank := rfl
@[simp] theorem State.setFmu_dumpLost (s : State) (u : FmuId) (x : Fmu) : (s.setFmu u x).dumpLost = s.dumpLost := rfl
@[simp] theorem State.setFmu_harp (s : State) (u : FmuId) (x : Fmu) : (s.setFmu u x).harp = s.harp := rfl
@[simp] theorem State.setFmu_load (s : State) (u : FmuId) (x : Fmu) : (s.setFmu u x).load = s.load := rfl
@[simp] theorem State.setFmu_spi (s : State) (u : FmuId) (x : Fmu) : (s.setFmu u x).spi = s.spi := rfl
@[simp] theorem State.setFmu_freeCtr (s : State) (u : FmuId) (x : Fmu) : (s.setFmu u x).freeCtr = s.freeCtr := rfl
@[simp] theorem State.setFmu_pending (s : State) (u : FmuId) (x : Fmu) : (s.setFmu u x).pending = s.pending := rfl

/-! ### setPluck -/

@[simp] theorem State.setPluck_nut (s : State) (g : PluckId) (p : Pluck) : (s.setPluck g p).nut = s.nut := rfl
@[simp] theorem State.setPluck_nutRun (s : State) (g : PluckId) (p : Pluck) : (s.setPluck g p).nutRun = s.nutRun := rfl
@[simp] theorem State.setPluck_replicas (s : State) (g : PluckId) (p : Pluck) : (s.setPluck g p).replicas = s.replicas := rfl
@[simp] theorem State.setPluck_power (s : State) (g : PluckId) (p : Pluck) : (s.setPluck g p).power = s.power := rfl
@[simp] theorem State.setPluck_irq (s : State) (g : PluckId) (p : Pluck) : (s.setPluck g p).irq = s.irq := rfl
@[simp] theorem State.setPluck_flight (s : State) (g : PluckId) (p : Pluck) : (s.setPluck g p).flight = s.flight := rfl
@[simp] theorem State.setPluck_regs (s : State) (g : PluckId) (p : Pluck) : (s.setPluck g p).regs = s.regs := rfl
@[simp] theorem State.setPluck_setNow (s : State) (g : PluckId) (p : Pluck) : (s.setPluck g p).setNow = s.setNow := rfl
@[simp] theorem State.setPluck_rdShadow (s : State) (g : PluckId) (p : Pluck) : (s.setPluck g p).rdShadow = s.rdShadow := rfl
@[simp] theorem State.setPluck_wrShadow (s : State) (g : PluckId) (p : Pluck) : (s.setPluck g p).wrShadow = s.wrShadow := rfl
@[simp] theorem State.setPluck_speedAt (s : State) (g : PluckId) (p : Pluck) : (s.setPluck g p).speedAt = s.speedAt := rfl
@[simp] theorem State.setPluck_tunings (s : State) (g : PluckId) (p : Pluck) : (s.setPluck g p).tunings = s.tunings := rfl
@[simp] theorem State.setPluck_leap (s : State) (g : PluckId) (p : Pluck) : (s.setPluck g p).leap = s.leap := rfl
@[simp] theorem State.setPluck_lines (s : State) (g : PluckId) (p : Pluck) : (s.setPluck g p).lines = s.lines := rfl
@[simp] theorem State.setPluck_picks (s : State) (g : PluckId) (p : Pluck) : (s.setPluck g p).picks = s.picks := rfl
@[simp] theorem State.setPluck_fmus (s : State) (g : PluckId) (p : Pluck) : (s.setPluck g p).fmus = s.fmus := rfl
@[simp] theorem State.setPluck_house (s : State) (g : PluckId) (p : Pluck) : (s.setPluck g p).house = s.house := rfl
@[simp] theorem State.setPluck_edges (s : State) (g : PluckId) (p : Pluck) : (s.setPluck g p).edges = s.edges := rfl
@[simp] theorem State.setPluck_reconvAt (s : State) (g : PluckId) (p : Pluck) : (s.setPluck g p).reconvAt = s.reconvAt := rfl
@[simp] theorem State.setPluck_panel (s : State) (g : PluckId) (p : Pluck) : (s.setPluck g p).panel = s.panel := rfl
@[simp] theorem State.setPluck_slots (s : State) (g : PluckId) (p : Pluck) : (s.setPluck g p).slots = s.slots := rfl
@[simp] theorem State.setPluck_bridge (s : State) (g : PluckId) (p : Pluck) : (s.setPluck g p).bridge = s.bridge := rfl
@[simp] theorem State.setPluck_synths (s : State) (g : PluckId) (p : Pluck) : (s.setPluck g p).synths = s.synths := rfl
@[simp] theorem State.setPluck_foutClk (s : State) (g : PluckId) (p : Pluck) : (s.setPluck g p).foutClk = s.foutClk := rfl
@[simp] theorem State.setPluck_irigCf (s : State) (g : PluckId) (p : Pluck) : (s.setPluck g p).irigCf = s.irigCf := rfl
@[simp] theorem State.setPluck_irig (s : State) (g : PluckId) (p : Pluck) : (s.setPluck g p).irig = s.irig := rfl
@[simp] theorem State.setPluck_tods (s : State) (g : PluckId) (p : Pluck) : (s.setPluck g p).tods = s.tods := rfl
@[simp] theorem State.setPluck_ctxs (s : State) (g : PluckId) (p : Pluck) : (s.setPluck g p).ctxs = s.ctxs := rfl
@[simp] theorem State.setPluck_quiet (s : State) (g : PluckId) (p : Pluck) : (s.setPluck g p).quiet = s.quiet := rfl
@[simp] theorem State.setPluck_lastIss (s : State) (g : PluckId) (p : Pluck) : (s.setPluck g p).lastIss = s.lastIss := rfl
@[simp] theorem State.setPluck_lastPc (s : State) (g : PluckId) (p : Pluck) : (s.setPluck g p).lastPc = s.lastPc := rfl
@[simp] theorem State.setPluck_courses (s : State) (g : PluckId) (p : Pluck) : (s.setPluck g p).courses = s.courses := rfl
@[simp] theorem State.setPluck_client (s : State) (g : PluckId) (p : Pluck) : (s.setPluck g p).client = s.client := rfl
@[simp] theorem State.setPluck_bad (s : State) (g : PluckId) (p : Pluck) : (s.setPluck g p).bad = s.bad := rfl
@[simp] theorem State.setPluck_ports (s : State) (g : PluckId) (p : Pluck) : (s.setPluck g p).ports = s.ports := rfl
@[simp] theorem State.setPluck_i2cRun (s : State) (g : PluckId) (p : Pluck) : (s.setPluck g p).i2cRun = s.i2cRun := rfl
@[simp] theorem State.setPluck_txRings (s : State) (g : PluckId) (p : Pluck) : (s.setPluck g p).txRings = s.txRings := rfl
@[simp] theorem State.setPluck_rxLost (s : State) (g : PluckId) (p : Pluck) : (s.setPluck g p).rxLost = s.rxLost := rfl
@[simp] theorem State.setPluck_keys (s : State) (g : PluckId) (p : Pluck) : (s.setPluck g p).keys = s.keys := rfl
@[simp] theorem State.setPluck_hostMem (s : State) (g : PluckId) (p : Pluck) : (s.setPluck g p).hostMem = s.hostMem := rfl
@[simp] theorem State.setPluck_counters (s : State) (g : PluckId) (p : Pluck) : (s.setPluck g p).counters = s.counters := rfl
@[simp] theorem State.setPluck_cntStart (s : State) (g : PluckId) (p : Pluck) : (s.setPluck g p).cntStart = s.cntStart := rfl
@[simp] theorem State.setPluck_cntReq (s : State) (g : PluckId) (p : Pluck) : (s.setPluck g p).cntReq = s.cntReq := rfl
@[simp] theorem State.setPluck_bank (s : State) (g : PluckId) (p : Pluck) : (s.setPluck g p).bank = s.bank := rfl
@[simp] theorem State.setPluck_dumpLost (s : State) (g : PluckId) (p : Pluck) : (s.setPluck g p).dumpLost = s.dumpLost := rfl
@[simp] theorem State.setPluck_harp (s : State) (g : PluckId) (p : Pluck) : (s.setPluck g p).harp = s.harp := rfl
@[simp] theorem State.setPluck_load (s : State) (g : PluckId) (p : Pluck) : (s.setPluck g p).load = s.load := rfl
@[simp] theorem State.setPluck_spi (s : State) (g : PluckId) (p : Pluck) : (s.setPluck g p).spi = s.spi := rfl
@[simp] theorem State.setPluck_freeCtr (s : State) (g : PluckId) (p : Pluck) : (s.setPluck g p).freeCtr = s.freeCtr := rfl
@[simp] theorem State.setPluck_pending (s : State) (g : PluckId) (p : Pluck) : (s.setPluck g p).pending = s.pending := rfl

/-! ### setEdge -/

@[simp] theorem State.setEdge_nut (s : State) (o : OutId) (e : Edge) : (s.setEdge o e).nut = s.nut := rfl
@[simp] theorem State.setEdge_nutRun (s : State) (o : OutId) (e : Edge) : (s.setEdge o e).nutRun = s.nutRun := rfl
@[simp] theorem State.setEdge_replicas (s : State) (o : OutId) (e : Edge) : (s.setEdge o e).replicas = s.replicas := rfl
@[simp] theorem State.setEdge_power (s : State) (o : OutId) (e : Edge) : (s.setEdge o e).power = s.power := rfl
@[simp] theorem State.setEdge_irq (s : State) (o : OutId) (e : Edge) : (s.setEdge o e).irq = s.irq := rfl
@[simp] theorem State.setEdge_flight (s : State) (o : OutId) (e : Edge) : (s.setEdge o e).flight = s.flight := rfl
@[simp] theorem State.setEdge_regs (s : State) (o : OutId) (e : Edge) : (s.setEdge o e).regs = s.regs := rfl
@[simp] theorem State.setEdge_setNow (s : State) (o : OutId) (e : Edge) : (s.setEdge o e).setNow = s.setNow := rfl
@[simp] theorem State.setEdge_rdShadow (s : State) (o : OutId) (e : Edge) : (s.setEdge o e).rdShadow = s.rdShadow := rfl
@[simp] theorem State.setEdge_wrShadow (s : State) (o : OutId) (e : Edge) : (s.setEdge o e).wrShadow = s.wrShadow := rfl
@[simp] theorem State.setEdge_speedAt (s : State) (o : OutId) (e : Edge) : (s.setEdge o e).speedAt = s.speedAt := rfl
@[simp] theorem State.setEdge_tunings (s : State) (o : OutId) (e : Edge) : (s.setEdge o e).tunings = s.tunings := rfl
@[simp] theorem State.setEdge_leap (s : State) (o : OutId) (e : Edge) : (s.setEdge o e).leap = s.leap := rfl
@[simp] theorem State.setEdge_lines (s : State) (o : OutId) (e : Edge) : (s.setEdge o e).lines = s.lines := rfl
@[simp] theorem State.setEdge_picks (s : State) (o : OutId) (e : Edge) : (s.setEdge o e).picks = s.picks := rfl
@[simp] theorem State.setEdge_fmus (s : State) (o : OutId) (e : Edge) : (s.setEdge o e).fmus = s.fmus := rfl
@[simp] theorem State.setEdge_house (s : State) (o : OutId) (e : Edge) : (s.setEdge o e).house = s.house := rfl
@[simp] theorem State.setEdge_plucks (s : State) (o : OutId) (e : Edge) : (s.setEdge o e).plucks = s.plucks := rfl
@[simp] theorem State.setEdge_reconvAt (s : State) (o : OutId) (e : Edge) : (s.setEdge o e).reconvAt = s.reconvAt := rfl
@[simp] theorem State.setEdge_panel (s : State) (o : OutId) (e : Edge) : (s.setEdge o e).panel = s.panel := rfl
@[simp] theorem State.setEdge_slots (s : State) (o : OutId) (e : Edge) : (s.setEdge o e).slots = s.slots := rfl
@[simp] theorem State.setEdge_bridge (s : State) (o : OutId) (e : Edge) : (s.setEdge o e).bridge = s.bridge := rfl
@[simp] theorem State.setEdge_synths (s : State) (o : OutId) (e : Edge) : (s.setEdge o e).synths = s.synths := rfl
@[simp] theorem State.setEdge_foutClk (s : State) (o : OutId) (e : Edge) : (s.setEdge o e).foutClk = s.foutClk := rfl
@[simp] theorem State.setEdge_irigCf (s : State) (o : OutId) (e : Edge) : (s.setEdge o e).irigCf = s.irigCf := rfl
@[simp] theorem State.setEdge_irig (s : State) (o : OutId) (e : Edge) : (s.setEdge o e).irig = s.irig := rfl
@[simp] theorem State.setEdge_tods (s : State) (o : OutId) (e : Edge) : (s.setEdge o e).tods = s.tods := rfl
@[simp] theorem State.setEdge_ctxs (s : State) (o : OutId) (e : Edge) : (s.setEdge o e).ctxs = s.ctxs := rfl
@[simp] theorem State.setEdge_quiet (s : State) (o : OutId) (e : Edge) : (s.setEdge o e).quiet = s.quiet := rfl
@[simp] theorem State.setEdge_lastIss (s : State) (o : OutId) (e : Edge) : (s.setEdge o e).lastIss = s.lastIss := rfl
@[simp] theorem State.setEdge_lastPc (s : State) (o : OutId) (e : Edge) : (s.setEdge o e).lastPc = s.lastPc := rfl
@[simp] theorem State.setEdge_courses (s : State) (o : OutId) (e : Edge) : (s.setEdge o e).courses = s.courses := rfl
@[simp] theorem State.setEdge_client (s : State) (o : OutId) (e : Edge) : (s.setEdge o e).client = s.client := rfl
@[simp] theorem State.setEdge_bad (s : State) (o : OutId) (e : Edge) : (s.setEdge o e).bad = s.bad := rfl
@[simp] theorem State.setEdge_ports (s : State) (o : OutId) (e : Edge) : (s.setEdge o e).ports = s.ports := rfl
@[simp] theorem State.setEdge_i2cRun (s : State) (o : OutId) (e : Edge) : (s.setEdge o e).i2cRun = s.i2cRun := rfl
@[simp] theorem State.setEdge_txRings (s : State) (o : OutId) (e : Edge) : (s.setEdge o e).txRings = s.txRings := rfl
@[simp] theorem State.setEdge_rxLost (s : State) (o : OutId) (e : Edge) : (s.setEdge o e).rxLost = s.rxLost := rfl
@[simp] theorem State.setEdge_keys (s : State) (o : OutId) (e : Edge) : (s.setEdge o e).keys = s.keys := rfl
@[simp] theorem State.setEdge_hostMem (s : State) (o : OutId) (e : Edge) : (s.setEdge o e).hostMem = s.hostMem := rfl
@[simp] theorem State.setEdge_counters (s : State) (o : OutId) (e : Edge) : (s.setEdge o e).counters = s.counters := rfl
@[simp] theorem State.setEdge_cntStart (s : State) (o : OutId) (e : Edge) : (s.setEdge o e).cntStart = s.cntStart := rfl
@[simp] theorem State.setEdge_cntReq (s : State) (o : OutId) (e : Edge) : (s.setEdge o e).cntReq = s.cntReq := rfl
@[simp] theorem State.setEdge_bank (s : State) (o : OutId) (e : Edge) : (s.setEdge o e).bank = s.bank := rfl
@[simp] theorem State.setEdge_dumpLost (s : State) (o : OutId) (e : Edge) : (s.setEdge o e).dumpLost = s.dumpLost := rfl
@[simp] theorem State.setEdge_harp (s : State) (o : OutId) (e : Edge) : (s.setEdge o e).harp = s.harp := rfl
@[simp] theorem State.setEdge_load (s : State) (o : OutId) (e : Edge) : (s.setEdge o e).load = s.load := rfl
@[simp] theorem State.setEdge_spi (s : State) (o : OutId) (e : Edge) : (s.setEdge o e).spi = s.spi := rfl
@[simp] theorem State.setEdge_freeCtr (s : State) (o : OutId) (e : Edge) : (s.setEdge o e).freeCtr = s.freeCtr := rfl
@[simp] theorem State.setEdge_pending (s : State) (o : OutId) (e : Edge) : (s.setEdge o e).pending = s.pending := rfl

/-! ### setCnt -/

@[simp] theorem State.setCnt_nut (s : State) (n : Nat) (c : Counter) : (s.setCnt n c).nut = s.nut := rfl
@[simp] theorem State.setCnt_nutRun (s : State) (n : Nat) (c : Counter) : (s.setCnt n c).nutRun = s.nutRun := rfl
@[simp] theorem State.setCnt_replicas (s : State) (n : Nat) (c : Counter) : (s.setCnt n c).replicas = s.replicas := rfl
@[simp] theorem State.setCnt_power (s : State) (n : Nat) (c : Counter) : (s.setCnt n c).power = s.power := rfl
@[simp] theorem State.setCnt_irq (s : State) (n : Nat) (c : Counter) : (s.setCnt n c).irq = s.irq := rfl
@[simp] theorem State.setCnt_flight (s : State) (n : Nat) (c : Counter) : (s.setCnt n c).flight = s.flight := rfl
@[simp] theorem State.setCnt_regs (s : State) (n : Nat) (c : Counter) : (s.setCnt n c).regs = s.regs := rfl
@[simp] theorem State.setCnt_setNow (s : State) (n : Nat) (c : Counter) : (s.setCnt n c).setNow = s.setNow := rfl
@[simp] theorem State.setCnt_rdShadow (s : State) (n : Nat) (c : Counter) : (s.setCnt n c).rdShadow = s.rdShadow := rfl
@[simp] theorem State.setCnt_wrShadow (s : State) (n : Nat) (c : Counter) : (s.setCnt n c).wrShadow = s.wrShadow := rfl
@[simp] theorem State.setCnt_speedAt (s : State) (n : Nat) (c : Counter) : (s.setCnt n c).speedAt = s.speedAt := rfl
@[simp] theorem State.setCnt_tunings (s : State) (n : Nat) (c : Counter) : (s.setCnt n c).tunings = s.tunings := rfl
@[simp] theorem State.setCnt_leap (s : State) (n : Nat) (c : Counter) : (s.setCnt n c).leap = s.leap := rfl
@[simp] theorem State.setCnt_lines (s : State) (n : Nat) (c : Counter) : (s.setCnt n c).lines = s.lines := rfl
@[simp] theorem State.setCnt_picks (s : State) (n : Nat) (c : Counter) : (s.setCnt n c).picks = s.picks := rfl
@[simp] theorem State.setCnt_fmus (s : State) (n : Nat) (c : Counter) : (s.setCnt n c).fmus = s.fmus := rfl
@[simp] theorem State.setCnt_house (s : State) (n : Nat) (c : Counter) : (s.setCnt n c).house = s.house := rfl
@[simp] theorem State.setCnt_plucks (s : State) (n : Nat) (c : Counter) : (s.setCnt n c).plucks = s.plucks := rfl
@[simp] theorem State.setCnt_edges (s : State) (n : Nat) (c : Counter) : (s.setCnt n c).edges = s.edges := rfl
@[simp] theorem State.setCnt_reconvAt (s : State) (n : Nat) (c : Counter) : (s.setCnt n c).reconvAt = s.reconvAt := rfl
@[simp] theorem State.setCnt_panel (s : State) (n : Nat) (c : Counter) : (s.setCnt n c).panel = s.panel := rfl
@[simp] theorem State.setCnt_slots (s : State) (n : Nat) (c : Counter) : (s.setCnt n c).slots = s.slots := rfl
@[simp] theorem State.setCnt_bridge (s : State) (n : Nat) (c : Counter) : (s.setCnt n c).bridge = s.bridge := rfl
@[simp] theorem State.setCnt_synths (s : State) (n : Nat) (c : Counter) : (s.setCnt n c).synths = s.synths := rfl
@[simp] theorem State.setCnt_foutClk (s : State) (n : Nat) (c : Counter) : (s.setCnt n c).foutClk = s.foutClk := rfl
@[simp] theorem State.setCnt_irigCf (s : State) (n : Nat) (c : Counter) : (s.setCnt n c).irigCf = s.irigCf := rfl
@[simp] theorem State.setCnt_irig (s : State) (n : Nat) (c : Counter) : (s.setCnt n c).irig = s.irig := rfl
@[simp] theorem State.setCnt_tods (s : State) (n : Nat) (c : Counter) : (s.setCnt n c).tods = s.tods := rfl
@[simp] theorem State.setCnt_ctxs (s : State) (n : Nat) (c : Counter) : (s.setCnt n c).ctxs = s.ctxs := rfl
@[simp] theorem State.setCnt_quiet (s : State) (n : Nat) (c : Counter) : (s.setCnt n c).quiet = s.quiet := rfl
@[simp] theorem State.setCnt_lastIss (s : State) (n : Nat) (c : Counter) : (s.setCnt n c).lastIss = s.lastIss := rfl
@[simp] theorem State.setCnt_lastPc (s : State) (n : Nat) (c : Counter) : (s.setCnt n c).lastPc = s.lastPc := rfl
@[simp] theorem State.setCnt_courses (s : State) (n : Nat) (c : Counter) : (s.setCnt n c).courses = s.courses := rfl
@[simp] theorem State.setCnt_client (s : State) (n : Nat) (c : Counter) : (s.setCnt n c).client = s.client := rfl
@[simp] theorem State.setCnt_bad (s : State) (n : Nat) (c : Counter) : (s.setCnt n c).bad = s.bad := rfl
@[simp] theorem State.setCnt_ports (s : State) (n : Nat) (c : Counter) : (s.setCnt n c).ports = s.ports := rfl
@[simp] theorem State.setCnt_i2cRun (s : State) (n : Nat) (c : Counter) : (s.setCnt n c).i2cRun = s.i2cRun := rfl
@[simp] theorem State.setCnt_txRings (s : State) (n : Nat) (c : Counter) : (s.setCnt n c).txRings = s.txRings := rfl
@[simp] theorem State.setCnt_rxLost (s : State) (n : Nat) (c : Counter) : (s.setCnt n c).rxLost = s.rxLost := rfl
@[simp] theorem State.setCnt_keys (s : State) (n : Nat) (c : Counter) : (s.setCnt n c).keys = s.keys := rfl
@[simp] theorem State.setCnt_hostMem (s : State) (n : Nat) (c : Counter) : (s.setCnt n c).hostMem = s.hostMem := rfl
@[simp] theorem State.setCnt_cntStart (s : State) (n : Nat) (c : Counter) : (s.setCnt n c).cntStart = s.cntStart := rfl
@[simp] theorem State.setCnt_cntReq (s : State) (n : Nat) (c : Counter) : (s.setCnt n c).cntReq = s.cntReq := rfl
@[simp] theorem State.setCnt_bank (s : State) (n : Nat) (c : Counter) : (s.setCnt n c).bank = s.bank := rfl
@[simp] theorem State.setCnt_dumpLost (s : State) (n : Nat) (c : Counter) : (s.setCnt n c).dumpLost = s.dumpLost := rfl
@[simp] theorem State.setCnt_harp (s : State) (n : Nat) (c : Counter) : (s.setCnt n c).harp = s.harp := rfl
@[simp] theorem State.setCnt_load (s : State) (n : Nat) (c : Counter) : (s.setCnt n c).load = s.load := rfl
@[simp] theorem State.setCnt_spi (s : State) (n : Nat) (c : Counter) : (s.setCnt n c).spi = s.spi := rfl
@[simp] theorem State.setCnt_freeCtr (s : State) (n : Nat) (c : Counter) : (s.setCnt n c).freeCtr = s.freeCtr := rfl
@[simp] theorem State.setCnt_pending (s : State) (n : Nat) (c : Counter) : (s.setCnt n c).pending = s.pending := rfl

/-! ### latch -/

@[simp] theorem State.latch_nut (s : State) (a k v : Nat) : (s.latch a k v).nut = s.nut := rfl
@[simp] theorem State.latch_nutRun (s : State) (a k v : Nat) : (s.latch a k v).nutRun = s.nutRun := rfl
@[simp] theorem State.latch_replicas (s : State) (a k v : Nat) : (s.latch a k v).replicas = s.replicas := rfl
@[simp] theorem State.latch_power (s : State) (a k v : Nat) : (s.latch a k v).power = s.power := rfl
@[simp] theorem State.latch_irq (s : State) (a k v : Nat) : (s.latch a k v).irq = s.irq := rfl
@[simp] theorem State.latch_flight (s : State) (a k v : Nat) : (s.latch a k v).flight = s.flight := rfl
@[simp] theorem State.latch_regs (s : State) (a k v : Nat) : (s.latch a k v).regs = s.regs := rfl
@[simp] theorem State.latch_setNow (s : State) (a k v : Nat) : (s.latch a k v).setNow = s.setNow := rfl
@[simp] theorem State.latch_wrShadow (s : State) (a k v : Nat) : (s.latch a k v).wrShadow = s.wrShadow := rfl
@[simp] theorem State.latch_speedAt (s : State) (a k v : Nat) : (s.latch a k v).speedAt = s.speedAt := rfl
@[simp] theorem State.latch_tunings (s : State) (a k v : Nat) : (s.latch a k v).tunings = s.tunings := rfl
@[simp] theorem State.latch_leap (s : State) (a k v : Nat) : (s.latch a k v).leap = s.leap := rfl
@[simp] theorem State.latch_lines (s : State) (a k v : Nat) : (s.latch a k v).lines = s.lines := rfl
@[simp] theorem State.latch_picks (s : State) (a k v : Nat) : (s.latch a k v).picks = s.picks := rfl
@[simp] theorem State.latch_fmus (s : State) (a k v : Nat) : (s.latch a k v).fmus = s.fmus := rfl
@[simp] theorem State.latch_house (s : State) (a k v : Nat) : (s.latch a k v).house = s.house := rfl
@[simp] theorem State.latch_plucks (s : State) (a k v : Nat) : (s.latch a k v).plucks = s.plucks := rfl
@[simp] theorem State.latch_edges (s : State) (a k v : Nat) : (s.latch a k v).edges = s.edges := rfl
@[simp] theorem State.latch_reconvAt (s : State) (a k v : Nat) : (s.latch a k v).reconvAt = s.reconvAt := rfl
@[simp] theorem State.latch_panel (s : State) (a k v : Nat) : (s.latch a k v).panel = s.panel := rfl
@[simp] theorem State.latch_slots (s : State) (a k v : Nat) : (s.latch a k v).slots = s.slots := rfl
@[simp] theorem State.latch_bridge (s : State) (a k v : Nat) : (s.latch a k v).bridge = s.bridge := rfl
@[simp] theorem State.latch_synths (s : State) (a k v : Nat) : (s.latch a k v).synths = s.synths := rfl
@[simp] theorem State.latch_foutClk (s : State) (a k v : Nat) : (s.latch a k v).foutClk = s.foutClk := rfl
@[simp] theorem State.latch_irigCf (s : State) (a k v : Nat) : (s.latch a k v).irigCf = s.irigCf := rfl
@[simp] theorem State.latch_irig (s : State) (a k v : Nat) : (s.latch a k v).irig = s.irig := rfl
@[simp] theorem State.latch_tods (s : State) (a k v : Nat) : (s.latch a k v).tods = s.tods := rfl
@[simp] theorem State.latch_ctxs (s : State) (a k v : Nat) : (s.latch a k v).ctxs = s.ctxs := rfl
@[simp] theorem State.latch_quiet (s : State) (a k v : Nat) : (s.latch a k v).quiet = s.quiet := rfl
@[simp] theorem State.latch_lastIss (s : State) (a k v : Nat) : (s.latch a k v).lastIss = s.lastIss := rfl
@[simp] theorem State.latch_lastPc (s : State) (a k v : Nat) : (s.latch a k v).lastPc = s.lastPc := rfl
@[simp] theorem State.latch_courses (s : State) (a k v : Nat) : (s.latch a k v).courses = s.courses := rfl
@[simp] theorem State.latch_client (s : State) (a k v : Nat) : (s.latch a k v).client = s.client := rfl
@[simp] theorem State.latch_bad (s : State) (a k v : Nat) : (s.latch a k v).bad = s.bad := rfl
@[simp] theorem State.latch_ports (s : State) (a k v : Nat) : (s.latch a k v).ports = s.ports := rfl
@[simp] theorem State.latch_i2cRun (s : State) (a k v : Nat) : (s.latch a k v).i2cRun = s.i2cRun := rfl
@[simp] theorem State.latch_txRings (s : State) (a k v : Nat) : (s.latch a k v).txRings = s.txRings := rfl
@[simp] theorem State.latch_rxLost (s : State) (a k v : Nat) : (s.latch a k v).rxLost = s.rxLost := rfl
@[simp] theorem State.latch_keys (s : State) (a k v : Nat) : (s.latch a k v).keys = s.keys := rfl
@[simp] theorem State.latch_hostMem (s : State) (a k v : Nat) : (s.latch a k v).hostMem = s.hostMem := rfl
@[simp] theorem State.latch_counters (s : State) (a k v : Nat) : (s.latch a k v).counters = s.counters := rfl
@[simp] theorem State.latch_cntStart (s : State) (a k v : Nat) : (s.latch a k v).cntStart = s.cntStart := rfl
@[simp] theorem State.latch_cntReq (s : State) (a k v : Nat) : (s.latch a k v).cntReq = s.cntReq := rfl
@[simp] theorem State.latch_bank (s : State) (a k v : Nat) : (s.latch a k v).bank = s.bank := rfl
@[simp] theorem State.latch_dumpLost (s : State) (a k v : Nat) : (s.latch a k v).dumpLost = s.dumpLost := rfl
@[simp] theorem State.latch_harp (s : State) (a k v : Nat) : (s.latch a k v).harp = s.harp := rfl
@[simp] theorem State.latch_load (s : State) (a k v : Nat) : (s.latch a k v).load = s.load := rfl
@[simp] theorem State.latch_spi (s : State) (a k v : Nat) : (s.latch a k v).spi = s.spi := rfl
@[simp] theorem State.latch_freeCtr (s : State) (a k v : Nat) : (s.latch a k v).freeCtr = s.freeCtr := rfl
@[simp] theorem State.latch_pending (s : State) (a k v : Nat) : (s.latch a k v).pending = s.pending := rfl

/-! ### shadowCommit -/

@[simp] theorem State.shadowCommit_nut (s : State) (a k v : Nat) : (s.shadowCommit a k v).nut = s.nut := rfl
@[simp] theorem State.shadowCommit_nutRun (s : State) (a k v : Nat) : (s.shadowCommit a k v).nutRun = s.nutRun := rfl
@[simp] theorem State.shadowCommit_replicas (s : State) (a k v : Nat) : (s.shadowCommit a k v).replicas = s.replicas := rfl
@[simp] theorem State.shadowCommit_power (s : State) (a k v : Nat) : (s.shadowCommit a k v).power = s.power := rfl
@[simp] theorem State.shadowCommit_irq (s : State) (a k v : Nat) : (s.shadowCommit a k v).irq = s.irq := rfl
@[simp] theorem State.shadowCommit_flight (s : State) (a k v : Nat) : (s.shadowCommit a k v).flight = s.flight := rfl
@[simp] theorem State.shadowCommit_regs (s : State) (a k v : Nat) : (s.shadowCommit a k v).regs = s.regs := rfl
@[simp] theorem State.shadowCommit_setNow (s : State) (a k v : Nat) : (s.shadowCommit a k v).setNow = s.setNow := rfl
@[simp] theorem State.shadowCommit_rdShadow (s : State) (a k v : Nat) : (s.shadowCommit a k v).rdShadow = s.rdShadow := rfl
@[simp] theorem State.shadowCommit_speedAt (s : State) (a k v : Nat) : (s.shadowCommit a k v).speedAt = s.speedAt := rfl
@[simp] theorem State.shadowCommit_tunings (s : State) (a k v : Nat) : (s.shadowCommit a k v).tunings = s.tunings := rfl
@[simp] theorem State.shadowCommit_leap (s : State) (a k v : Nat) : (s.shadowCommit a k v).leap = s.leap := rfl
@[simp] theorem State.shadowCommit_lines (s : State) (a k v : Nat) : (s.shadowCommit a k v).lines = s.lines := rfl
@[simp] theorem State.shadowCommit_picks (s : State) (a k v : Nat) : (s.shadowCommit a k v).picks = s.picks := rfl
@[simp] theorem State.shadowCommit_fmus (s : State) (a k v : Nat) : (s.shadowCommit a k v).fmus = s.fmus := rfl
@[simp] theorem State.shadowCommit_house (s : State) (a k v : Nat) : (s.shadowCommit a k v).house = s.house := rfl
@[simp] theorem State.shadowCommit_plucks (s : State) (a k v : Nat) : (s.shadowCommit a k v).plucks = s.plucks := rfl
@[simp] theorem State.shadowCommit_edges (s : State) (a k v : Nat) : (s.shadowCommit a k v).edges = s.edges := rfl
@[simp] theorem State.shadowCommit_reconvAt (s : State) (a k v : Nat) : (s.shadowCommit a k v).reconvAt = s.reconvAt := rfl
@[simp] theorem State.shadowCommit_panel (s : State) (a k v : Nat) : (s.shadowCommit a k v).panel = s.panel := rfl
@[simp] theorem State.shadowCommit_slots (s : State) (a k v : Nat) : (s.shadowCommit a k v).slots = s.slots := rfl
@[simp] theorem State.shadowCommit_bridge (s : State) (a k v : Nat) : (s.shadowCommit a k v).bridge = s.bridge := rfl
@[simp] theorem State.shadowCommit_synths (s : State) (a k v : Nat) : (s.shadowCommit a k v).synths = s.synths := rfl
@[simp] theorem State.shadowCommit_foutClk (s : State) (a k v : Nat) : (s.shadowCommit a k v).foutClk = s.foutClk := rfl
@[simp] theorem State.shadowCommit_irigCf (s : State) (a k v : Nat) : (s.shadowCommit a k v).irigCf = s.irigCf := rfl
@[simp] theorem State.shadowCommit_irig (s : State) (a k v : Nat) : (s.shadowCommit a k v).irig = s.irig := rfl
@[simp] theorem State.shadowCommit_tods (s : State) (a k v : Nat) : (s.shadowCommit a k v).tods = s.tods := rfl
@[simp] theorem State.shadowCommit_ctxs (s : State) (a k v : Nat) : (s.shadowCommit a k v).ctxs = s.ctxs := rfl
@[simp] theorem State.shadowCommit_quiet (s : State) (a k v : Nat) : (s.shadowCommit a k v).quiet = s.quiet := rfl
@[simp] theorem State.shadowCommit_lastIss (s : State) (a k v : Nat) : (s.shadowCommit a k v).lastIss = s.lastIss := rfl
@[simp] theorem State.shadowCommit_lastPc (s : State) (a k v : Nat) : (s.shadowCommit a k v).lastPc = s.lastPc := rfl
@[simp] theorem State.shadowCommit_courses (s : State) (a k v : Nat) : (s.shadowCommit a k v).courses = s.courses := rfl
@[simp] theorem State.shadowCommit_client (s : State) (a k v : Nat) : (s.shadowCommit a k v).client = s.client := rfl
@[simp] theorem State.shadowCommit_bad (s : State) (a k v : Nat) : (s.shadowCommit a k v).bad = s.bad := rfl
@[simp] theorem State.shadowCommit_ports (s : State) (a k v : Nat) : (s.shadowCommit a k v).ports = s.ports := rfl
@[simp] theorem State.shadowCommit_i2cRun (s : State) (a k v : Nat) : (s.shadowCommit a k v).i2cRun = s.i2cRun := rfl
@[simp] theorem State.shadowCommit_txRings (s : State) (a k v : Nat) : (s.shadowCommit a k v).txRings = s.txRings := rfl
@[simp] theorem State.shadowCommit_rxLost (s : State) (a k v : Nat) : (s.shadowCommit a k v).rxLost = s.rxLost := rfl
@[simp] theorem State.shadowCommit_keys (s : State) (a k v : Nat) : (s.shadowCommit a k v).keys = s.keys := rfl
@[simp] theorem State.shadowCommit_hostMem (s : State) (a k v : Nat) : (s.shadowCommit a k v).hostMem = s.hostMem := rfl
@[simp] theorem State.shadowCommit_counters (s : State) (a k v : Nat) : (s.shadowCommit a k v).counters = s.counters := rfl
@[simp] theorem State.shadowCommit_cntStart (s : State) (a k v : Nat) : (s.shadowCommit a k v).cntStart = s.cntStart := rfl
@[simp] theorem State.shadowCommit_cntReq (s : State) (a k v : Nat) : (s.shadowCommit a k v).cntReq = s.cntReq := rfl
@[simp] theorem State.shadowCommit_bank (s : State) (a k v : Nat) : (s.shadowCommit a k v).bank = s.bank := rfl
@[simp] theorem State.shadowCommit_dumpLost (s : State) (a k v : Nat) : (s.shadowCommit a k v).dumpLost = s.dumpLost := rfl
@[simp] theorem State.shadowCommit_harp (s : State) (a k v : Nat) : (s.shadowCommit a k v).harp = s.harp := rfl
@[simp] theorem State.shadowCommit_load (s : State) (a k v : Nat) : (s.shadowCommit a k v).load = s.load := rfl
@[simp] theorem State.shadowCommit_spi (s : State) (a k v : Nat) : (s.shadowCommit a k v).spi = s.spi := rfl
@[simp] theorem State.shadowCommit_freeCtr (s : State) (a k v : Nat) : (s.shadowCommit a k v).freeCtr = s.freeCtr := rfl
@[simp] theorem State.shadowCommit_pending (s : State) (a k v : Nat) : (s.shadowCommit a k v).pending = s.pending := rfl

/-! ### hostStore -/

@[simp] theorem State.hostStore_nut (s : State) (a : Nat) (bs : List Byte) : (s.hostStore a bs).nut = s.nut := rfl
@[simp] theorem State.hostStore_nutRun (s : State) (a : Nat) (bs : List Byte) : (s.hostStore a bs).nutRun = s.nutRun := rfl
@[simp] theorem State.hostStore_replicas (s : State) (a : Nat) (bs : List Byte) : (s.hostStore a bs).replicas = s.replicas := rfl
@[simp] theorem State.hostStore_power (s : State) (a : Nat) (bs : List Byte) : (s.hostStore a bs).power = s.power := rfl
@[simp] theorem State.hostStore_irq (s : State) (a : Nat) (bs : List Byte) : (s.hostStore a bs).irq = s.irq := rfl
@[simp] theorem State.hostStore_flight (s : State) (a : Nat) (bs : List Byte) : (s.hostStore a bs).flight = s.flight := rfl
@[simp] theorem State.hostStore_regs (s : State) (a : Nat) (bs : List Byte) : (s.hostStore a bs).regs = s.regs := rfl
@[simp] theorem State.hostStore_setNow (s : State) (a : Nat) (bs : List Byte) : (s.hostStore a bs).setNow = s.setNow := rfl
@[simp] theorem State.hostStore_rdShadow (s : State) (a : Nat) (bs : List Byte) : (s.hostStore a bs).rdShadow = s.rdShadow := rfl
@[simp] theorem State.hostStore_wrShadow (s : State) (a : Nat) (bs : List Byte) : (s.hostStore a bs).wrShadow = s.wrShadow := rfl
@[simp] theorem State.hostStore_speedAt (s : State) (a : Nat) (bs : List Byte) : (s.hostStore a bs).speedAt = s.speedAt := rfl
@[simp] theorem State.hostStore_tunings (s : State) (a : Nat) (bs : List Byte) : (s.hostStore a bs).tunings = s.tunings := rfl
@[simp] theorem State.hostStore_leap (s : State) (a : Nat) (bs : List Byte) : (s.hostStore a bs).leap = s.leap := rfl
@[simp] theorem State.hostStore_lines (s : State) (a : Nat) (bs : List Byte) : (s.hostStore a bs).lines = s.lines := rfl
@[simp] theorem State.hostStore_picks (s : State) (a : Nat) (bs : List Byte) : (s.hostStore a bs).picks = s.picks := rfl
@[simp] theorem State.hostStore_fmus (s : State) (a : Nat) (bs : List Byte) : (s.hostStore a bs).fmus = s.fmus := rfl
@[simp] theorem State.hostStore_house (s : State) (a : Nat) (bs : List Byte) : (s.hostStore a bs).house = s.house := rfl
@[simp] theorem State.hostStore_plucks (s : State) (a : Nat) (bs : List Byte) : (s.hostStore a bs).plucks = s.plucks := rfl
@[simp] theorem State.hostStore_edges (s : State) (a : Nat) (bs : List Byte) : (s.hostStore a bs).edges = s.edges := rfl
@[simp] theorem State.hostStore_reconvAt (s : State) (a : Nat) (bs : List Byte) : (s.hostStore a bs).reconvAt = s.reconvAt := rfl
@[simp] theorem State.hostStore_panel (s : State) (a : Nat) (bs : List Byte) : (s.hostStore a bs).panel = s.panel := rfl
@[simp] theorem State.hostStore_slots (s : State) (a : Nat) (bs : List Byte) : (s.hostStore a bs).slots = s.slots := rfl
@[simp] theorem State.hostStore_bridge (s : State) (a : Nat) (bs : List Byte) : (s.hostStore a bs).bridge = s.bridge := rfl
@[simp] theorem State.hostStore_synths (s : State) (a : Nat) (bs : List Byte) : (s.hostStore a bs).synths = s.synths := rfl
@[simp] theorem State.hostStore_foutClk (s : State) (a : Nat) (bs : List Byte) : (s.hostStore a bs).foutClk = s.foutClk := rfl
@[simp] theorem State.hostStore_irigCf (s : State) (a : Nat) (bs : List Byte) : (s.hostStore a bs).irigCf = s.irigCf := rfl
@[simp] theorem State.hostStore_irig (s : State) (a : Nat) (bs : List Byte) : (s.hostStore a bs).irig = s.irig := rfl
@[simp] theorem State.hostStore_tods (s : State) (a : Nat) (bs : List Byte) : (s.hostStore a bs).tods = s.tods := rfl
@[simp] theorem State.hostStore_ctxs (s : State) (a : Nat) (bs : List Byte) : (s.hostStore a bs).ctxs = s.ctxs := rfl
@[simp] theorem State.hostStore_quiet (s : State) (a : Nat) (bs : List Byte) : (s.hostStore a bs).quiet = s.quiet := rfl
@[simp] theorem State.hostStore_lastIss (s : State) (a : Nat) (bs : List Byte) : (s.hostStore a bs).lastIss = s.lastIss := rfl
@[simp] theorem State.hostStore_lastPc (s : State) (a : Nat) (bs : List Byte) : (s.hostStore a bs).lastPc = s.lastPc := rfl
@[simp] theorem State.hostStore_courses (s : State) (a : Nat) (bs : List Byte) : (s.hostStore a bs).courses = s.courses := rfl
@[simp] theorem State.hostStore_client (s : State) (a : Nat) (bs : List Byte) : (s.hostStore a bs).client = s.client := rfl
@[simp] theorem State.hostStore_bad (s : State) (a : Nat) (bs : List Byte) : (s.hostStore a bs).bad = s.bad := rfl
@[simp] theorem State.hostStore_ports (s : State) (a : Nat) (bs : List Byte) : (s.hostStore a bs).ports = s.ports := rfl
@[simp] theorem State.hostStore_i2cRun (s : State) (a : Nat) (bs : List Byte) : (s.hostStore a bs).i2cRun = s.i2cRun := rfl
@[simp] theorem State.hostStore_txRings (s : State) (a : Nat) (bs : List Byte) : (s.hostStore a bs).txRings = s.txRings := rfl
@[simp] theorem State.hostStore_rxLost (s : State) (a : Nat) (bs : List Byte) : (s.hostStore a bs).rxLost = s.rxLost := rfl
@[simp] theorem State.hostStore_keys (s : State) (a : Nat) (bs : List Byte) : (s.hostStore a bs).keys = s.keys := rfl
@[simp] theorem State.hostStore_counters (s : State) (a : Nat) (bs : List Byte) : (s.hostStore a bs).counters = s.counters := rfl
@[simp] theorem State.hostStore_cntStart (s : State) (a : Nat) (bs : List Byte) : (s.hostStore a bs).cntStart = s.cntStart := rfl
@[simp] theorem State.hostStore_cntReq (s : State) (a : Nat) (bs : List Byte) : (s.hostStore a bs).cntReq = s.cntReq := rfl
@[simp] theorem State.hostStore_bank (s : State) (a : Nat) (bs : List Byte) : (s.hostStore a bs).bank = s.bank := rfl
@[simp] theorem State.hostStore_dumpLost (s : State) (a : Nat) (bs : List Byte) : (s.hostStore a bs).dumpLost = s.dumpLost := rfl
@[simp] theorem State.hostStore_harp (s : State) (a : Nat) (bs : List Byte) : (s.hostStore a bs).harp = s.harp := rfl
@[simp] theorem State.hostStore_load (s : State) (a : Nat) (bs : List Byte) : (s.hostStore a bs).load = s.load := rfl
@[simp] theorem State.hostStore_spi (s : State) (a : Nat) (bs : List Byte) : (s.hostStore a bs).spi = s.spi := rfl
@[simp] theorem State.hostStore_freeCtr (s : State) (a : Nat) (bs : List Byte) : (s.hostStore a bs).freeCtr = s.freeCtr := rfl
@[simp] theorem State.hostStore_pending (s : State) (a : Nat) (bs : List Byte) : (s.hostStore a bs).pending = s.pending := rfl

end Sys2Proof.Machine
end

