-- ==== Sys2Proof/Laws/Ops.lean ====
section
/-! SUPPORT. What each shared operation does, once: fields of words, registers, vectors, host access. -/

namespace Sys2Proof.Machine

/-! ### Fields of words -/

theorem getLsbD_fldMask (lo len i : Nat) :
    (fldMask lo len).getLsbD i = (decide (i < 20) && decide (lo ≤ i) && decide (i < lo + len)) := by
  unfold fldMask
  rw [BitVec.getLsbD_ofNat, Nat.testBit_shiftLeft, Nat.testBit_two_pow_sub_one]
  by_cases h1 : i < 20 <;> by_cases h2 : lo ≤ i <;> by_cases h3 : i < lo + len <;> simp [h1, h2, h3] <;> omega

theorem getLsbD_putFld (w : Word) (lo len v i : Nat) (hi : i < 20) :
    (putFld w lo len v).getLsbD i = if lo ≤ i ∧ i < lo + len then v.testBit (i - lo) else w.getLsbD i := by
  unfold putFld
  rw [BitVec.getLsbD_or, BitVec.getLsbD_and, BitVec.getLsbD_not, getLsbD_fldMask, BitVec.getLsbD_ofNat,
    Nat.testBit_shiftLeft, Nat.testBit_mod_two_pow]
  by_cases h2 : lo ≤ i <;> by_cases h3 : i < lo + len <;> simp [hi, h2, h3] <;> omega

theorem testBit_fld (w : Word) (lo len i : Nat) : (fld w lo len).testBit i = (decide (i < len) && w.getLsbD (lo + i)) := by
  unfold fld
  rw [Nat.testBit_mod_two_pow, Nat.testBit_shiftRight]
  rfl

/-- A field reads as it was last put. -/
theorem fld_putFld (w : Word) (lo len v : Nat) (h : lo + len ≤ 20) : fld (putFld w lo len v) lo len = v % 2 ^ len := by
  apply Nat.eq_of_testBit_eq
  intro i
  rw [testBit_fld, Nat.testBit_mod_two_pow]
  by_cases hi : i < len
  · rw [getLsbD_putFld _ _ _ _ _ (by omega), if_pos ⟨by omega, by omega⟩, Nat.add_sub_cancel_left]
  · simp [hi]

/-- A field put leaves the others. -/
theorem fld_putFld_ne (w : Word) (lo len v lo' len' : Nat) (h : lo' + len' ≤ 20)
    (hd : lo' + len' ≤ lo ∨ lo + len ≤ lo') : fld (putFld w lo len v) lo' len' = fld w lo' len' := by
  apply Nat.eq_of_testBit_eq
  intro i
  rw [testBit_fld, testBit_fld]
  by_cases hi : i < len'
  · rw [getLsbD_putFld _ _ _ _ _ (by omega), if_neg (by omega)]
  · simp [hi]

theorem bitOf_putFld_ne (w : Word) (lo len v n : Nat) (h : n < 20) (hd : n < lo ∨ lo + len ≤ n) :
    bitOf (putFld w lo len v) n = bitOf w n := by
  unfold bitOf
  rw [getLsbD_putFld _ _ _ _ _ h, if_neg (by omega)]

/-- A bit put reads as put; the others stay. -/
theorem bitOf_putBit (w : Word) (n m : Nat) (b : Bool) (h : m < 20) :
    bitOf (putBit w n b) m = if m = n then b else bitOf w m := by
  unfold bitOf putBit
  rw [getLsbD_putFld _ _ _ _ _ h]
  by_cases hm : m = n
  · subst hm; cases b <;> simp
  · rw [if_neg (by omega), if_neg hm]

theorem fld_putBit_ne (w : Word) (n lo len : Nat) (b : Bool) (h : lo + len ≤ 20) (hd : lo + len ≤ n ∨ n < lo) :
    fld (putBit w n b) lo len = fld w lo len := fld_putFld_ne _ _ _ _ _ _ h (by omega)

theorem fld_lt (w : Word) (lo len : Nat) : fld w lo len < 2 ^ len := Nat.mod_lt _ (Nat.two_pow_pos len)

/-! ### Registers -/

/-- A register reads as it was last set. -/
@[simp] theorem State.reg_setReg (s : State) (a b : Nat) (v : Word) :
    (s.setReg a v).reg b = if b = a then v else s.reg b := by
  have h := Sparse.find_write (fun b => some (regReset b)) s.regs a b v
  unfold State.reg State.setReg
  simp only
  by_cases hb : b = a
  · rw [if_pos hb] at h ⊢
    generalize Sparse.find (Sparse.write (fun b => some (regReset b)) s.regs a v) b = o at h
    cases o <;> simp_all [Option.orElse]
  · rw [if_neg hb] at h ⊢
    generalize Sparse.find (Sparse.write (fun b => some (regReset b)) s.regs a v) b = o at h ⊢
    generalize Sparse.find s.regs b = o' at h ⊢
    cases o <;> cases o' <;> simp_all [Option.orElse]

theorem State.reg_setReg_self (s : State) (a : Nat) (v : Word) : (s.setReg a v).reg a = v := by simp

theorem State.reg_setReg_ne (s : State) {a b : Nat} (v : Word) (h : b ≠ a) : (s.setReg a v).reg b = s.reg b := by
  simp [h]

@[simp] theorem State.rBit_setReg (s : State) (a b n : Nat) (v : Word) :
    (s.setReg a v).rBit b n = if b = a then bitOf v n else s.rBit b n := by
  unfold State.rBit; rw [State.reg_setReg]; split <;> rfl

@[simp] theorem State.rFld_setReg (s : State) (a b lo len : Nat) (v : Word) :
    (s.setReg a v).rFld b lo len = if b = a then fld v lo len else s.rFld b lo len := by
  unfold State.rFld; rw [State.reg_setReg]; split <;> rfl

/-- An update that leaves the register words leaves every register. -/
theorem State.reg_congr {s t : State} (h : s.regs = t.regs) (a : Nat) : s.reg a = t.reg a := by
  unfold State.reg; rw [h]

/-- A multi-word write changes no register outside its words. -/
theorem State.reg_setRegN_out (s : State) (a k v b : Nat) (h : b < a ∨ a + 4 * k ≤ b) :
    (s.setRegN a k v).reg b = s.reg b := by
  induction k generalizing s a v with
  | zero => rfl
  | succ k ih => rw [State.setRegN, ih _ _ _ (by omega), State.reg_setReg, if_neg (by omega)]

/-- A multi-word register reads as it was last set. -/
theorem State.regN_setRegN (s : State) (a k v : Nat) : (s.setRegN a k v).regN a k = v % 2 ^ (20 * k) := by
  induction k generalizing s a v with
  | zero => simp [State.regN, Nat.mod_one]
  | succ k ih =>
    rw [State.setRegN, State.regN, ih, State.reg_setRegN_out _ _ _ _ _ (by omega), State.reg_setReg_self,
      BitVec.toNat_ofNat, Nat.shiftRight_eq_div_pow, show 20 * (k + 1) = 20 + 20 * k by omega, Nat.pow_add,
      Nat.mod_mul]

/-- The register map stays canonical under a write. -/
theorem State.regsWf_setReg (s : State) (a : Nat) (v : Word) (h : s.regsWf = true) : (s.setReg a v).regsWf = true :=
  Sparse.wf_write _ _ _ _ h

theorem State.regsWf_setRegN (s : State) (a k v : Nat) (h : s.regsWf = true) : (s.setRegN a k v).regsWf = true := by
  induction k generalizing s a v with
  | zero => exact h
  | succ k ih => exact ih _ _ _ (State.regsWf_setReg s a _ h)

theorem State.regsWf_clearRegs (s : State) (lo hi : Nat) (h : s.regsWf = true) : (s.clearRegs lo hi).regsWf = true :=
  Sparse.wf_filter _ _ _ h

/-! ### Vectors -/

@[simp] theorem vset_get {α : Type} {n : Nat} (v : Vector α n) (i j : Fin n) (x : α) :
    (vset v i x).get j = if j = i then x else v.get j := by
  obtain ⟨i, hi⟩ := i
  obtain ⟨j, hj⟩ := j
  simp only [vset, Vector.get, Vector.set, Fin.mk.injEq, Fin.cast_mk]
  rw [Array.getElem_set]
  simp only [eq_comm]
  rfl

@[simp] theorem State.ctx_setCtx (s : State) (x y : CtxId) (c : Ctx) :
    (s.setCtx x c).ctx y = if y = x then c else s.ctx y := by
  unfold State.ctx State.setCtx; simp

@[simp] theorem State.course_onCourse (s : State) (c d : CourseId) (f : Course → Course) :
    (s.onCourse c f).course d = if d = c then f (s.course c) else s.course d := by
  unfold State.onCourse; simp only [State.course, vset_get]

@[simp] theorem State.port_onPort (s : State) (p q : PortId) (f : PortSt → PortSt) :
    (s.onPort p f).port q = if q = p then f (s.port p) else s.port q := by
  unfold State.onPort; simp only [State.port, vset_get]

/-! ### Host access -/

/-- A host write that reaches its register has its effect. -/
theorem State.hostWrite_open (s : State) (a : Nat) (f : State → State) (h : s.hostOpen a = true) : s.hostWrite a f = f s := by
  unfold State.hostWrite; rw [if_pos h]

/-- A host write that does not reach its register changes nothing but the two registers that count it during a boot. -/
theorem State.hostWrite_shut (s : State) (a : Nat) (f : State → State) (h : s.hostOpen a = false) :
    s.hostWrite a f = s ∨ s.hostWrite a f = (s.addSat Reg.cfgHostdrop 1).orReg Reg.cfgCause 0x08000 := by
  unfold State.hostWrite
  rw [if_neg (by simp [h])]
  split
  · exact .inr rfl
  · exact .inl rfl

/-- A field update of a register and a tick of the free values leave the waiting commands. -/
theorem State.pending_hostWrite (s : State) (a : Nat) (f : State → State) (h : (f s).pending = s.pending) :
    (s.hostWrite a f).pending = s.pending := by
  unfold State.hostWrite
  split
  · exact h
  · split <;> simp

end Sys2Proof.Machine
end

