-- ==== Sys2Proof/Tests/Slice0.lean ====
section
/-! SUPPORT. Tests: ill-formed commands, the spec's own examples, and for each statement a state and operands that meet its
hypotheses. -/

namespace Sys2Proof.Tests
open Sys2Proof.Machine

set_option Elab.async false

/-- The machine after a boot: the nut runs, every domain is powered, no boot runs, and no crossing is void. -/
def up : State :=
  { State.reset with
    nutRun := true, nut := 65536000000, power := { State.reset.power with phase := .up, xing := Vector.replicate 56 ⟨false, false⟩ },
    regs := [(0x2000, 0), (0x2080, 0xFFF), (0x2084, 0xFFF)] }

/-- A state with register words set. -/
def regs (s : State) : List (Nat × Word) → State
  | [] => s
  | (a, v) :: l => regs (s.setReg a v) l


/-! ### Ill-formed commands -/

/-- Each check of `Instr.wf` refuses a term that breaks it and takes one that keeps it. -/
theorem test_wf_words :
    (Instr.jtagBypass 0x3C).wf = false ∧ (Instr.jtagBypass 0xFF).wf = true ∧
    (Instr.coldResetCmd 0).wf = false ∧ (Instr.coldResetCmd 0x40000).wf = true ∧
    (Instr.warmReset 0xC0000).wf = false ∧ (Instr.warmReset 0).wf = false ∧ (Instr.warmReset 0x80000).wf = true ∧
    (Instr.domainSwitchOff 0).wf = false ∧ (Instr.domainSwitchOff 11).wf = true ∧
    (Instr.leapArm 0).wf = false ∧ (Instr.leapCancel 0x80000).wf = false ∧
    (Instr.portResetEnd 3 0x40000).wf = false ∧ (Instr.i2cReadCmd 3 0x80000).wf = false ∧ (Instr.i2cWriteCmd 3 0xC0000).wf = false := by
  decide

theorem test_wf_rings :
    (Instr.rxFrame 0 [] true false ⟨0, 0⟩).wf = false ∧ (Instr.txRingFetch 0 { len := 60, port := 0, report := false, tag := 0 } [1] false).wf = false ∧
    (Instr.ringEnable (.rx 0) 0).wf = false ∧ (Instr.ringDisable (.tx 7) 0x80000).wf = false ∧
    (Instr.pluckArm 255 0).wf = false ∧ (Instr.edgePluckArm 7 0).wf = false ∧ (Instr.courseLoad 0x30000 []).wf = false ∧
    (Instr.spiCommand 0x40000).wf = false ∧ (Instr.spiCommandDone (List.replicate 257 0)).wf = false ∧
    (Instr.spiCommandDone (List.replicate 256 0)).wf = true := by
  decide +kernel

/-! ### The clock, the tunings and leap seconds -/

/-- A state whose T0 and T3 have anchors; T3 is a child of T0. -/
def tun3 : State :=
  regs up [(Reg.tunStatus 0, 0), (Reg.tunAncNut 0, 0x123), (Reg.tunAncVal 0 + 8, 0x5000), (Reg.tunAncRate 0, 0x777),
    (Reg.tunStatus 3, 0x40012), (Reg.tunAncNut 3, 0x1234), (Reg.tunAncVal 3, 0x777), (Reg.tunAncRate 3, 0x12345),
    (Reg.tunLeapAt 0, 30), (Reg.tunSmearLen 0, 200)]

/-- A host commit of a kind, with a legal value. -/
def commitOf (k : BitVec 2) : Commit :=
  { kind := k, seq := false, parent := true, nut := 0x5555, val := ftMake (-37) 250000000 5, rate := BitVec.ofInt 40 (-5) }

/-- Its crossing to tuning 3. -/
def crossing (k : BitVec 2) : State :=
  { tun3 with tunings := vset tun3.tunings 3 { tun3.tunings.get 3 with host := some (commitOf k) } }

theorem witness_StepRunsFront : ({ up with pending := [.pllLock, .commitTick] } : State).pending = .pllLock :: [.commitTick] := by decide

theorem witness_IdleTick : up.pending = [] ∧ up.nutRun = true ∧ State.reset.pending = [] ∧ State.reset.nutRun = false := by decide

theorem witness_NutInvKept : (up.nutRun = true ↔ up.power.phase = .up) ∧ up.nut.toNat % 2 ^ 15 = 0 ∧
    (step up matches .next _) = true := by decide +kernel

theorem witness_NutUnwritten : (exec .commitTick up matches .next _) = true ∧ (exec (.powerOn 0) up matches .next _) = true := by
  decide +kernel

theorem witness_CapturesOfTime : up.hostReads Reg.nutNow = true ∧ up.hostReads (Reg.tunRead 0) = true ∧
    up.hostReads (Reg.tunRead 15) = true := by decide +kernel

theorem witness_TuningRequests : up.hostOpen (Reg.tunCommit 0) = true ∧ up.hostOpen (Reg.tunCommit 15) = true ∧
    up.holding = false ∧ (up.tunings.get 15).host = none ∧ up.isVoid 49 = false ∧ ((crossing 0).tunings.get 3).host ≠ none := by
  decide +kernel

theorem witness_CommitTickEffect : ∀ k ∈ ([0, 1, 2] : List (BitVec 2)),
    ((crossing k).tunings.get 3).host = some (commitOf k) ∧ ((crossing k).tunings.get 3).hostNext = none ∧
    (∀ j : TunId, j ≠ 3 → ((crossing k).tunings.get j).host = none ∧ ((crossing k).tunings.get j).progs = []) ∧
    commitBad (crossing k) 3 (commitOf k) = false ∧ (commitOf k).kind = k ∧ (commitOf k).seq = false ∧ (crossing k).tickTaken 3 = false ∧
    (crossing k).rBit Reg.brgLoopStat 16 = false := by decide +kernel

theorem witness_NutRoundTrip : (tun3.setBit (Reg.tunCtrl 3) 19 true).tunOn 3 = true ∧ (tun3.setBit (Reg.tunCtrl 3) 19 true).isChild 3 = true ∧
    ((0x9999 : Nut) - tun3.reg80 (Reg.tunAncNut 3)).toInt =
      ((0x9999 : Nut) - tun3.reg80 (Reg.tunAncNut 0)).toInt + (tun3.reg80 (Reg.tunAncNut 0) - tun3.reg80 (Reg.tunAncNut 3)).toInt ∧
    tun3.isChild 0 = false ∧ tun3.tunOn 0 = true := by decide +kernel

/-- `tun3` with tuning 3 of a kind enabled, the leap at second `at_` armed with DIR `d`, and the actions `l` due. -/
def leapOf (kind at_ d : Nat) (l : Leap) : State :=
  { regs tun3 [(Reg.tunCtrl 3, BitVec.ofNat 20 (0x80000 + kind * 2 ^ 17)), (Reg.tunLeapAt 0, BitVec.ofNat 20 at_),
      (Reg.tunLeapCtrl 0, BitVec.ofNat 20 (2 ^ 19 + d * 2 ^ 18))] with leap := l }

/-- Every action of the leap due but the end of LEAP_SEC. -/
def leapDue : Leap := { stepDue := true, secDue := false, startDue := true, endDue := true, stepped := none }

theorem witness_LeapWrites :
    tun3.hostOpen (Reg.tunLeapCtrl 0) = true ∧ tun3.rBit (Reg.tunLeapCtrl 0) 19 = false ∧ bitOf 0xC0000 19 = true ∧
    (¬ (tun3.rFld (Reg.tunSmearLen 0) 0 17 % 2 = 1 ∨ tun3.rFld (Reg.tunSmearLen 0) 0 17 < 200 ∨ 86400 < tun3.rFld (Reg.tunSmearLen 0) 0 17 ∨ tun3.leapAt ≤ tun3.t0Units + secUnits ∨
      tun3.rBit (Reg.tunStatus 0) 19 = true)) ∧
    (∀ k : TunId, k ≠ 0 → tun3.rFld (Reg.tunCtrl k) 17 2 ≠ 2) ∧
    (tun3.setReg (Reg.tunSmearLen 0) 199).rFld (Reg.tunSmearLen 0) 0 17 < 200 ∧
    (leapOf 1 30 0 leapDue).t0Units < (leapOf 1 30 0 leapDue).leapAt ∧
    (∀ k : TunId, (leapOf 1 30 0 leapDue).rBit (Reg.tunStatus k) 13 = false) ∧
    (leapOf 1 3 0 leapDue).leapAt ≤ (leapOf 1 3 0 leapDue).t0Units ∧
    (leapOf 1 3 0 leapDue).rBit (Reg.tunLeapCtrl 0) 19 = true := by decide +kernel

theorem witness_LeapActions :
    (leapOf 1 3 0 leapDue).isChild 3 = true ∧ (leapOf 1 3 0 leapDue).tunsOfKind 1 = [3] ∧
    commitRange (leapOf 1 3 0 leapDue) 3
      { kind := 2, seq := false, parent := false, nut := 0, val := ftOfUnits (leapOf 1 3 0 leapDue).leapSign, rate := 0 } = false ∧
    (leapOf 1 3 0 { leapDue with secDue := true }).leapAt + secUnits ≤ (leapOf 1 3 0 leapDue).t0Units ∧
    (leapOf 2 30 0 leapDue).tunsOfKind 2 = [3] ∧
    (leapOf 2 30 0 leapDue).leapAt - (leapOf 2 30 0 leapDue).smearHalf ≤ (leapOf 2 30 0 leapDue).t0Units ∧
    fitsSigned 40 (((leapOf 2 30 0 leapDue).reg40 (Reg.tunAncRate 3)).toInt + (leapOf 2 30 0 leapDue).smearRate) = true ∧
    fitsSigned 40 (((leapOf 2 30 0 leapDue).reg40 (Reg.tunAncRate 0)).toInt + ((leapOf 2 30 0 leapDue).reg40 (Reg.tunAncRate 3)).toInt +
      (leapOf 2 30 0 leapDue).smearRate) = true := by decide +kernel

/-- `leapOf` whose smear runs, with T0 past LEAP_AT + W/2. -/
def smearing : State :=
  let s := (leapOf 2 3 1 { leapDue with startDue := false })
  regs { s with tunings := vset s.tunings 3 { s.tunings.get 3 with preOff := 77, preRate := 5, preNut := 9 } } [(Reg.tunStatus 3, 0x42012), (Reg.tunAncVal 0 + 8, 0xC8000)]

theorem witness_LeapActions_smearEnd :
    smearing.leap.endDue = true ∧ smearing.leap.startDue = false ∧ smearing.rBit (Reg.tunLeapCtrl 0) 19 = true ∧ smearing.isChild 3 = true ∧
    (∀ j : TunId, smearing.rBit (Reg.tunStatus j) 13 = (j == 3)) ∧
    commitRange smearing 3 { kind := 0, seq := false, parent := true, nut := 0, val := 0, rate := (smearing.tunings.get 3).preRate } = false ∧
    smearing.leapAt + smearing.smearHalf ≤ smearing.t0Units := by decide +kernel

/-- R60: r_s = −round(10¹⁴ / W) for an insertion; over the default window of 86,400 s that is −1,157,407,407. -/
theorem test_smear_rate :
    ((leapOf 2 30 0 leapDue).setReg (Reg.tunSmearLen 0) 86400).smearRate = -1157407407 ∧
    ((leapOf 2 30 1 leapDue).setReg (Reg.tunSmearLen 0) 86400).smearRate = 1157407407 := by decide +kernel

/-! ### Resets, boot, the host domain and power -/

/-- After reset with the PLL locked. -/
def lockedS : State := { State.reset with power := { State.reset.power with phase := .locked } }

theorem witness_ClockStart : State.reset.power.phase = .held ∧ State.reset.power.rstLow = false ∧ State.reset.power.loIn = true ∧
    State.reset.rFld Reg.pwrLo 0 3 ≤ 5 ∧ lockedS.power.phase = .locked := by decide +kernel

theorem test_nut_starts : ((exec .nutStart lockedS matches .next _) = true) ∧ (lockedS.nut = 0) := by decide +kernel

theorem witness_ColdResets : up.hostOpen Reg.devRst = true ∧ fld 0x4A5C3 0 16 = 0xA5C3 ∧ bitOf 0x4A5C3 18 = true ∧
    fld 0x4A5C2 0 16 ≠ 0xA5C3 := by decide +kernel

/-- The machine in a warm reset. -/
def warm : State := regs up [(Reg.pwrStat, 0x40FFF), (Reg.cfgStat, 0x80000)]

theorem witness_ResetRequests : up.hostOpen Reg.devRst = true ∧ fld 0xCA5C2 0 16 ≠ 0xA5C3 ∧
    fld 0xCA5C3 0 16 = 0xA5C3 ∧ bitOf 0xCA5C3 18 = true ∧ fld 0x8A5C3 0 16 = 0xA5C3 ∧ bitOf 0x8A5C3 18 = false ∧
    bitOf 0x8A5C3 19 = true ∧ up.rBit Reg.pwrStat 18 = false ∧ warm.hostOpen Reg.devRst = true ∧
    warm.rBit Reg.pwrStat 18 = true ∧ bitOf 0x0A5C3 18 = false ∧ bitOf 0x0A5C3 19 = false := by decide +kernel

theorem test_devRst_key :
    (match exec (.registerWrite Reg.devRst 0x4A5C2 true) up with | .next t => t.rBit Reg.devCfgErr 19 | _ => false) = true := by
  decide +kernel


theorem witness_WarmAndCourseResets :
    up.hostOpen Reg.devRst = true ∧ fld 0x8A5C3 0 16 = 0xA5C3 ∧ bitOf 0x8A5C3 18 = false ∧ bitOf 0x8A5C3 19 = true ∧
    up.rBit Reg.pwrStat 18 = false ∧ warm.hostOpen Reg.devRst = true ∧ warm.rBit Reg.pwrStat 18 = true ∧
    warm.rBit Reg.cfgStat 19 = true ∧ warm.rBit Reg.cfgSpiCmd 18 = false ∧
    up.hostOpen Reg.devCrsRst = true ∧ (∀ c : CourseId, up.rBit Reg.devCrsRst c = false) ∧
    (up.setReg Reg.devCrsRst 0xF).hostOpen Reg.devCrsRst = true ∧ (up.setReg Reg.devCrsRst 0xF).rBit Reg.devCrsRst 3 = true ∧
    up.powered 4 = true ∧ (up.course 3).toRom = false := by decide +kernel

/-- The machine in a cold boot. -/
def booting : State := up.setReg Reg.cfgStat 0x80000

theorem witness_ColdBoot : booting.power.phase = .up ∧ booting.coldBooting = true ∧ imageReason [] = 1 := by decide +kernel

theorem witness_HostDomain : up.power.phase = .up ∧ up.powered 11 = true ∧ up.power.trans = none ∧ up.hostUp = true ∧
    (∀ d : DomainId, up.rBit Reg.pwrCtrl d = up.powered d) := by decide +kernel

/-- A state whose crossing 23 is void, with its clock lost where `lost`. -/
def voided (lost : Bool) : State :=
  { up with power := { up.power with xing := vset up.power.xing 23 { void := true, lost := lost } } }

theorem witness_Crossings : (up.power.xing.get 0).lost = false ∧ (up.power.xing.get 48).lost = false ∧ up.isVoid 23 = false ∧
    (voided false).isVoid 23 = true ∧ ((voided false).power.xing.get 23).lost = false ∧ (voided false).sidesUp 23 = true ∧
    ((voided true).power.xing.get 23).lost = true ∧
    (voided false).isVoid 48 = false := by decide +kernel

/-- `up` with PWR_STAT.POWERED and PWR_CTRL.ON words, and a transition. -/
def domains (on powered : Word) (tr : Option (Fin 12 × Bool)) : State :=
  let s := regs up [(Reg.pwrCtrl, on), (Reg.pwrStat, powered)]
  { s with power := { s.power with trans := tr } }

theorem witness_PowerDomains :
    (domains 0xBFF 0xBFF none).power.phase = .up ∧ (∀ e : DomainId, (domains 0xBFF 0xBFF none).rBit Reg.pwrCtrl e = (domains 0xBFF 0xBFF none).powered e) ∧
    (domains 0xBFF 0xBFF none).hostOpen Reg.pwrCtrl = true ∧ (domains 0xBFF 0xBFF none).powered 10 = false ∧
    (domains 0xBFF 0xBFF none).rBit Reg.pwrCtrl 0 = true ∧ up.hostOpen Reg.pwrCtrl = true ∧ up.powered 9 = true ∧
    (domains 0xFFF 0xBFF (some (10, true))).rBit Reg.pwrCtrl 10 = true ∧
    (∀ e : DomainId, e ≠ 10 → (domains 0xFFF 0xBFF (some (10, true))).rBit Reg.pwrCtrl e = (domains 0xFFF 0xBFF (some (10, true))).powered e) ∧
    (domains 0xDFF 0xDFF (some (9, false))).rBit Reg.pwrCtrl 9 = false ∧ (domains 0xDFF 0xDFF (some (9, false))).powered 9 = false := by
  decide +kernel

/-- Supplies at their nominal levels but for VDD_TI and VDD_TDC. -/
def levels (ti tdc : Nat) : SupplyLevels :=
  { ti := ti, tdc := tdc, sb := Vector.replicate 5 5700, sd := 8000, sda := 11400, io18 := 16600, io33 := 31300 }

theorem witness_SuppliesAndTemperature :
    (up.setReg Reg.pwrSupply 0xFFF00).rFld Reg.pwrSupply 8 5 = 31 ∧ (up.setReg Reg.pwrSupply 0xFFF00).rBit Reg.pwrSupply 17 = true ∧
    (up.setReg Reg.pwrSupply 0xFFF00).rBit Reg.pwrSupply 18 = true ∧ (up.setReg Reg.pwrSupply 0xFFF00).rBit Reg.pwrSupply 19 = true ∧
    (∀ v ∈ (levels 7500 7499).sb.toList, 5700 ≤ v) ∧ (levels 7500 7499).tdc < 7500 ∧
    ({ up with power := { up.power with below := vset up.power.below 0 1 } } : State).power.below.get 0 = 1 ∧
    (levels 7499 7500).ti < 7500 ∧ up.rBit (Reg.pwrTemp 3) 19 = false ∧
    (up.rFld Reg.pwrTherm 8 8 : Int) * 128 ≤ (0x7FFF : BitVec 16).toInt ∧ (up.rFld Reg.pwrTherm 0 8 : Int) * 128 ≤ (0x7FFF : BitVec 16).toInt := by
  decide +kernel

/-! ### TDC lines -/

/-- A histogram of 300 codes that passes R76. -/
def goodHist : Sparse Nat := (List.range 300).map fun i => (i, if i == 5 then 1048576 - 299 * 3495 else 3495)

/-- Line 7 with CAL_EN, STALE_MS 100 and what `f` puts into it. -/
def line7 (f : Line → Line) : State :=
  ({ up with lines := vset up.lines 7 (f (up.lines.get 7)) } : State).setReg Reg.nutTdcCtrl 0x80064

theorem witness_LineCalibration_hits :
    (line7 id).rBit Reg.nutTdcCtrl 19 = true ∧ (line7 id).powered (lineDomain 7) = true ∧
    (line7 id).hitBarred 7 0 = false ∧
    ({ up with lines := vset up.lines 49 { up.lines.get 49 with hitAt := some 163840 } } : State).hitBarred 48 163840 = true ∧
    (up.setReg Reg.nutTdcCtrl 0).rBit Reg.nutTdcCtrl 19 = false := by decide +kernel

/-- Line 7 with one hit of window 163840 waiting and the events `l`. -/
def waiting7 (l : List Nut) : Line := { up.lines.get 7 with pend := [(163840, 5)], caps := l }

/-- An event two ticks after the window lies outside the four ticks around it, one a tick after it inside. -/
theorem witness_LineCalibration_gap :
    (waiting7 [491520]).pend = [(163840, 5)] ∧ (waiting7 [491520]).kept < 1048576 ∧ reached 327680 ((163840 : Nut) + 163840) = true ∧
    1 < ((491520 : Nut) - 163840).toInt / 163840 ∧ ((327680 : Nut) - 163840).toInt / 163840 = 1 ∧
    ((waiting7 [491520]).settle 327680).kept = 1 ∧ ((waiting7 [327680]).settle 327680).kept = 0 := by decide +kernel

theorem witness_LineCalibration_tables :
    histPasses ((line7 fun x => { x with kept := 1048576, hist := goodHist }).lines.get 7).hist = true ∧
    histPasses [(3, 1048576)] = false ∧ ((line7 fun x => { x with batchN := 65536 }).lines.get 7).batchN = 65536 ∧
    (line7 id).nutRun = true ∧
    (msNut ((line7 id).rFld Reg.nutTdcCtrl 0 10)).toNat < (({ line7 id with nut := msNut 200 } : State).nut - ((line7 id).active 7).swap).toNat ∧
    (line7 id).rBit (Reg.nutTdcLs 7) LS.stale = false ∧ (line7 id).hostOpen Reg.nutTdcCtrl = true := by decide +kernel

/-! ### Ports, frets and the packet path -/

/-- Port 3 runs with PCS_LOCK, its home course 0 runs with 20 receive slots, and steering's default goes to class 2. -/
def port3 : State :=
  regs up [(Reg.prtCtrl 3, 0x80000), (Reg.crsRun 0, 0x10000), (Reg.crsBufCfg 0, 20), (Reg.crsSteerDefault 0, 0x08000),
    (Reg.crsClassCfg 0 2, 30), (Reg.prtStat 3, 0x40000)]

/-- A plain frame of course 2 in slot 4 for port 3. -/
def send4 : Send :=
  { course := 2, x := none, ring := none, slot := 4, own := false, port := 3, len := 100, kind := 0, spec := [], report := false,
    notify := false, tag := 5, target := 0 }

/-- `port3` with LINK and one frame queued. -/
def queued : State := (port3.onPort 3 fun y => { y with queues := vset y.queues 2 [send4] }).setReg (Reg.prtStat 3) 0xC0000

theorem witness_LinkRises : port3.portRuns 3 = true ∧ port3.rBit (Reg.prtStat 3) 19 = false ∧
    (port3.setReg (Reg.prtStat 3) 0).rBit (Reg.prtStat 3) 18 = false ∧ port3.rBit (Reg.prtStat 3) 18 = true ∧
    (port3.setReg (Reg.prtCtrl 3) 0x82000).rBit (Reg.prtCtrl 3) 13 = true ∧ (port3.setReg (Reg.prtCtrl 3) 0x82000).portRuns 3 = true ∧
    port3.linkUpWith 3 true false false false = true := by unfold State.linkUpWith; decide +kernel

theorem witness_LockLoss : queued.rBit (Reg.prtStat 3) 18 = true ∧ queued.rBit (Reg.prtStat 3) 19 = true ∧
    port3.rBit (Reg.prtStat 3) 19 = false := by decide +kernel

/-- `port3` on the tick that ends a fret window, its side last counted elsewhere. -/
def fretTick : State := { port3 with nut := 524288 * 163840 }

theorem witness_FretWindows : fretTick.nutRun = true ∧ fretTick.nut.toNat % (524288 * 163840) = 0 ∧ fretTick.portRuns 3 = true ∧
    fretTick.rBit (Reg.prtStat 3) 18 = true ∧ (fretTick.port 3).txWin ≠ fretTick.nut ∧ (fretTick.port 3).rxWin ≠ fretTick.nut ∧
    5000 * (((BitVec.ofNat 20 (fretTick.modeRow 3).n0).toNat : Int) - (fretTick.modeRow 3).n0).natAbs ≤ (fretTick.modeRow 3).n0 ∧
    (fretTick.modeRow 3).n0 < 5000 * (((0 : Word).toNat : Int) - (fretTick.modeRow 3).n0).natAbs := by decide +kernel

theorem witness_PortResets : port3.hostOpen (Reg.prtCtrl 3) = true ∧ prtCtrlBad 0xC0000 = false ∧ bitOf 0xC0000 18 = true ∧
    prtCtrlBad 0xBC000 = true ∧ (port3.setReg (Reg.prtCtrl 3) 0xC0000).rBit (Reg.prtCtrl 3) 18 = true ∧
    ((port3.setReg (Reg.prtCtrl 3) 0xC0000).reg (Reg.prtCtrl 3) &&& 0xBF000) = ((0x80000 : Word) &&& 0xBF000) ∧
    prtCtrlBad (putBit 0x80000 18 false) = false ∧ (port3.port 3).held = false := by decide +kernel

theorem witness_ModuleSamples : (∀ p : PortId, (up.panel.mods.get p).level = up.rBit (Reg.prtStat p) 16) ∧
    (∀ p : PortId, (up.panel.mods.get p).run < 10) := by decide +kernel

/-- `port3` with its module present; then with its I2C command on the bus. -/
def mod3 : State := port3.setReg (Reg.prtStat 3) 0x10000
def i2cBusy : State :=
  { regs mod3 [(Reg.prtI2cCmd 3, 0x60012)] with i2cRun := vset mod3.i2cRun (busOf 3) (some { port := 3, msgs := mod3.i2cMsgs 3, fast := false }) }

theorem witness_ModuleAccess : mod3.hostOpen (Reg.prtI2cCmd 3) = true ∧ mod3.rBit (Reg.prtI2cCmd 3) 17 = false ∧
    mod3.rBit (Reg.prtStat 3) 16 = true ∧ (∀ q : PortId, q.val / 6 = 0 → q ≠ 3 → mod3.rBit (Reg.prtI2cCmd q) 17 = false) ∧
    mod3.i2cRun.get (busOf 3) = none ∧ port3.rBit (Reg.prtStat 3) 16 = false ∧ i2cBusy.rBit (Reg.prtI2cCmd 3) 17 = true ∧
    i2cBusy.i2cOwner (busOf 3) = some 3 ∧
    (∀ q : PortId, q.val / 6 = 0 → q ≠ 3 → i2cBusy.rBit (Reg.prtI2cCmd q) 17 = false) := by decide +kernel

/-- A frame of 60 bytes, none of MAC control. -/
def frame60 : List Byte := (List.range 60).map fun i => BitVec.ofNat 8 (i * 7)

theorem witness_RxDiscards : port3.portRuns 3 = true ∧ port3.rBit (Reg.prtStat 3) 18 = true ∧ port3.isVoid 3 = false ∧
    60 ≤ frame60.length ∧ ¬ port3.rFld (Reg.prtMaxlen 3) 0 12 < frame60.length + 4 ∧
    (port3.setReg (Reg.prtMaxlen 3) 63).rFld (Reg.prtMaxlen 3) 0 12 < frame60.length + 4 ∧ be16 frame60 12 ≠ 0x8808 ∧
    be16 (List.replicate 12 0 ++ [0x88, 0x08]) 12 = 0x8808 ∧ (port3.setReg (Reg.crsRun 0) 0).homeUp 0 = false ∧
    (port3.setReg (Reg.crsBufCfg 0) 0).freeSlots 0 = [] ∧ port3.homeUp 0 = true := by decide +kernel

theorem witness_RxDispatch : port3.freeSlots 0 ≠ [] ∧ (∀ e : Fin 64, port3.rBit (Reg.crsSteerAct 0 e) 19 = false) ∧
    port3.rFld (Reg.crsSteerDefault 0) 17 2 = 0 ∧ ((port3.course 0).classes.get 2).length < port3.rFld (Reg.crsClassCfg 0 2) 0 12 ∧
    frame60.length + 4 ≤ port3.rFld (Reg.prtMaxlen 3) 0 12 := by decide +kernel

theorem witness_SteeringCommit : up.hostOpen (Reg.crsSteerAct 0 63) = true ∧ fld 0x9C800 17 2 ≠ 3 ∧ fld 0xE0000 17 2 = 3 := by
  decide +kernel

/-- `queued` where the transmit side may take a frame. -/
def filling : State := queued.setReg (Reg.fretStat 3) 0x40000

theorem witness_PlainTransmit : filling.portRuns 3 = true ∧ filling.fretIn 3 = true ∧ filling.isVoid 27 = false ∧
    (filling.port 3).depart = [] ∧ (filling.port 3).stage = [] ∧ (filling.port 3).launch = [] ∧
    (filling.port 3).queues.get 2 = [send4] ∧ (∀ d : Fin 4, d ≠ 2 → (filling.port 3).queues.get d = []) ∧
    filling.badByte 2 (send4.slot * 2048) send4.len = none := by decide +kernel

/-- `filling` with `send4` in the fill stage, its departure converted. -/
def sending4 : State :=
  filling.onPort 3 fun y => { y with fill := [{ send := send4, bytes := List.replicate 100 0, d := doneOf send4 0 0 false, conv := none }] }

theorem witness_PlainTransmit_done : (sending4.port 3).fill.length = 1 ∧ (∀ g ∈ (sending4.port 3).fill, sending4.fillNoTun g = false) := by
  decide +kernel

/-- `filling` with a launch frame staged for tick 1000. -/
def staged3 : State :=
  filling.onPort 3 fun y => { y with stage := [{ send4 with kind := 2, target := 163840000 }], launch := [{ send4 with kind := 2, target := 0 }] }

theorem witness_LaunchTime : (staged3.port 3).stage ≠ [] ∧ staged3.fretIn 3 = true ∧
    (163840000 : Nut).toNat ≤ 163840000 + 65536 * staged3.launchTol 3 ∧
    163840000 + 65536 * staged3.launchTol 3 < (163840000 + 65536 * 1000 + 1 : Nut).toNat ∧ launchTick 0 ≤ (staged3.nut.toNat : Int) := by
  decide +kernel

/-- `up` with a CLR of port 3's counters that crosses since the tick before. -/
def clearing : State :=
  { up with cntReq := [(Reg.pmcPrtBw 3, { cnts := (List.range 4).map (Cnt.prt 3), old := 0, val := 0, at_ := some 163840, next := none })] }

theorem witness_Bandwidth_clears : ((Sparse.find clearing.cntReq (Reg.pmcPrtBw 3)).any fun q => q.at_ == some 163840) = true ∧
    (163840 : Nut) ≠ clearing.nut ∧ clearing.hostOpen (Reg.pmcPrtBw 3) = true ∧ Sparse.find up.cntReq (Reg.pmcPrtBw 3) = none ∧
    up.isVoid 49 = false := by decide +kernel

theorem witness_Bandwidth : up.hostOpen (Reg.pmcPrtBw 23) = true ∧ bitOf 10000 19 = false ∧ fld 1 0 14 = 1 ∧ fld 10000 0 14 = 10000 ∧
    fld 10001 0 14 = 10001 ∧ fld 0x40000 0 14 = 0 ∧
    (let s : State := { up with nut := up.bwSpan 3 }
     s.nut.toNat % (s.bwSpan 3).toNat = 0 ∧ reached s.nut ((s.port 3).bwFrom + s.bwSpan 3) = true) := by decide +kernel

theorem witness_SyncE : up.hostOpen Reg.brgSynceCtrl = true ∧
    bitOf (up.reg Reg.brgSynceCtrl) ((23 : PortId).val / 6) ≠ bitOf 0x80008 ((23 : PortId).val / 6) ∧
    bitOf (up.reg Reg.brgSynceCtrl) ((0 : PortId).val / 6) = bitOf 0x80008 ((0 : PortId).val / 6) ∧
    (up.setReg Reg.brgSynceCtrl 0x80000).rBit Reg.brgSynceCtrl 19 = true := by decide +kernel

/-! ### Dispatch, rings and keys -/

/-- Course 0 runs with entry words for class 2 and the host's start. -/
def course0 : State :=
  regs up [(Reg.crsRun 0, 0x10000), (Reg.crsClassEntry 0 2, 0x80123), (Reg.crsHostStart 0, 0x00456), (Reg.crsHostArg 0, 0x777),
    (Reg.crsClassCfg 0 2, 0xF0010)]

/-- A descriptor of slot 8. -/
def desc8 : Vector Word 12 := Vector.ofFn fun i => BitVec.ofNat 20 (if i.val = 5 then 8 * 2048 else i.val)

theorem witness_Dispatch : course0.mayTake 3 = true ∧ (course0.course 0).startQ = [] ∧ (course0.course 0).hostReq = false ∧
    (let s := course0.onCourse 0 fun v => { v with classes := vset v.classes 2 [desc8] }
     (s.course 0).classes.get 2 = [desc8] ∧ (∀ j : Fin 8, j ≠ 2 → (s.course 0).classes.get j = []) ∧ s.servedBy 0 2 (strOf 3) = true ∧
       s.mayTake 3 = true) ∧
    (let s := course0.onCourse 0 fun v => { v with startQ := [⟨5, 7, 0x80077, 0x99⟩], hostReq := true }
     s.mayTake 3 = true ∧ (s.course 0).startQ ≠ [] ∧ (s.course 0).hostReq = true) := by decide +kernel

/-- Context 3 waits for event 10. -/
def waits10 : State :=
  course0.onCtx 3 fun c => { c with mode := .wait, waiting := some { mask := 0x400, deadline := none, dst := 16 } }

theorem witness_HostCommands : course0.hostOpen (Reg.crsHostCmd 0) = true ∧ course0.crsState 0 = CS.run ∧
    course0.pendOf 0 10 < 65535 ∧ course0.waiterOf 0 10 = none ∧ waits10.pendOf 0 10 = 0 ∧ waits10.waiterOf 0 10 = some 3 ∧
    (waits10.ctx 3).waiting ≠ none := by decide +kernel

theorem witness_CourseStates : course0.hostOpen (Reg.crsRun 0) = true ∧ course0.loadHolds 0 = false ∧
    (course0.setCrsState 0 CS.drained).crsState 0 = CS.drained ∧ (course0.setCrsState 0 CS.draining).allQuiet 0 = true ∧
    ((course0.setCrsState 0 CS.draining).onCtx 3 fun c => { c with mode := .run }).allQuiet 0 = false ∧
    (let s := (course0.setCrsState 0 CS.draining).onCourse 0 fun v => { v with drainAt := some 0 }
     (s.course 0).drainAt = some 0 ∧
       reached (msNut 100000) (0 + msNut (s.rFld (Reg.crsDrainTmo 0) 0 16)) = true) := by decide +kernel

theorem witness_RingControl : up.hostOpen (Reg.devRxCtrl 7) = true ∧ up.hostOpen (Reg.devTxCtrl 7) = true ∧
    up.rBit (Reg.devRxCtrl 7) 19 = false ∧ fld 0x8000C 0 5 = 12 ∧ fld 0x80017 0 5 = 23 ∧ fld 0x8000B 0 5 < 12 ∧ 23 < fld 0x80018 0 5 ∧
    fld 0x80004 0 4 = 4 ∧ fld 0x8000C 0 4 = 12 ∧ bitOf 0x8000C 19 = true ∧ bitOf 0x0000C 19 = false ∧
    (up.setReg (Reg.devRxCtrl 7) 0x8000C).rBit (Reg.devRxCtrl 7) 19 = true ∧
    (up.setReg (Reg.devTxCtrl 7) 0x80004).rBit (Reg.devTxCtrl 7) 19 = true := by decide +kernel

/-- Receive ring 7 of 2¹² units and transmit ring 0 of 16 entries, with the link up and DMA allowed. -/
def rings : State := regs up [(Reg.devRxCtrl 7, 0x8000C), (Reg.devTxCtrl 0, 0x80004), (Reg.devPcieStat, 0xC0000)]

/-- A punt of 60 bytes for ring 7. -/
def punt60 (k : Option Nat) : Punt := { ring := 7, desc := desc8, frame := frame60, slot := k }

theorem witness_ReceiveRecords : rings.rxRoom 7 16 = true ∧ rings.rxPad 7 16 = 0 ∧
    rings.rxRoom 7 (puntRecord 0 false desc8.toList frame60).length = true ∧
    rings.rxPad 7 (puntRecord 0 false desc8.toList frame60).length = 0 ∧
    up.rxRoom 7 (puntRecord 0 false desc8.toList frame60).length = false ∧
    up.badByte 0 (8 * 2048) frame60.length = none ∧
    ((rings.onCourse 0 fun v => { v with punts := [punt60 (some 8)] }).course 0).punts = [punt60 (some 8)] := by decide +kernel

theorem witness_TransmitRings_doorbell : rings.hostOpen (Reg.devTxTail 0) = true ∧
    (fld 16 0 16 + 65536 - rings.rFld (Reg.devTxDone 0) 0 16) % 65536 ≤ 2 ^ rings.rFld (Reg.devTxCtrl 0) 0 4 ∧
    2 ^ rings.rFld (Reg.devTxCtrl 0) 0 4 < (fld 17 0 16 + 65536 - rings.rFld (Reg.devTxDone 0) 0 16) % 65536 := by decide +kernel

/-- `rings` with an entry to fetch, port 3's link up, and receive slots in the ring's course. -/
def fetching : State :=
  regs rings [(Reg.devTxTail 0, 1), (Reg.prtCtrl 3, 0x80000), (Reg.prtStat 3, 0xC0000), (Reg.crsRun (ringCourse 0), 0x10000),
    (Reg.crsBufCfg (ringCourse 0), 20)]

theorem witness_TransmitRings_fetch : fetching.mayFetch 0 = true ∧ (60 : BitVec 16).toNat + 4 ≤ fetching.rFld (Reg.prtMaxlen 3) 0 12 ∧
    fetching.rBit (Reg.prtStat 3) 19 = true ∧ ((fetching.port 3).queues.get (ringCourse 0)).length < 32 ∧
    fetching.freeSlots (ringCourse 0) ≠ [] ∧
    (∀ k ∈ fetching.freeSlots (ringCourse 0), k ∉ (fetching.course (ringCourse 0)).sending) := by decide +kernel

theorem witness_TransmitRings_complete :
    (let s := { rings with txRings := vset rings.txRings 0 { rings.txRings.get 0 with wait := [(0, [1, 2])] } }
     (s.txRings.get 0).wait = [(s.rFld (Reg.devTxDone 0) 0 16, [1, 2])] ∧ (s.txRings.get 0).comp = [] ∧ s.dmaUp = true) := by
  decide +kernel

theorem witness_DumpsAndLegacy :
    (let s := regs rings [(Reg.dmpStat, 0x40000), (Reg.dmpCtrl, 0x80004)]
     s.rBit Reg.dmpStat 18 = true ∧ s.dmaUp = true ∧
       (s.rFld Reg.dmpWr 0 16 + 65536 - s.rFld Reg.dmpRd 0 16) % 65536 < 2 ^ s.rFld Reg.dmpCtrl 0 4) ∧
    (up.setReg Reg.dmpStat 0x40000).dmaUp = false ∧ up.hostReads Reg.pmcLegVal = true ∧ cntValid (up.rFld Reg.pmcLegSel 0 12) = true ∧
    (up.setReg Reg.pmcLegSel 0x80000).rBit Reg.pmcLegSel 19 = true ∧ up.rBit Reg.pmcLegSel 19 = false := by decide +kernel

theorem witness_KeySlots : up.hostOpen Reg.keyCmd = true ∧ up.powered 9 = true ∧
    (domains 0xDFF 0xDFF none).hostOpen Reg.keyCmd = true ∧ (domains 0xDFF 0xDFF none).powered 9 = false := by decide +kernel

/-! ### Picks, regression units and the panel -/

/-- Pick 3 counts rising edges into its queue, LOS_EXP 21, drain size 2⁴. -/
def pick3 : State := regs up [(Reg.pickCtrl 3, 0x83500), (Reg.pickDrain 3, 0x00800)]

/-- A pick changed. -/
def onPick (s : State) (p : PickId) (f : Pick → Pick) : State := s.setPick p (f (s.picks.get p))

theorem witness_PickEdges : pick3.nutRun = true ∧ pick3.rBit (Reg.pickCtrl 3) 19 = true ∧ pick3.rBit (Reg.pickStat 3) 19 = false ∧
    up.rBit (Reg.pickCtrl 3) 19 = false ∧ (∀ r : SlotId, ¬ (pick3.rsSrc r = 1 ∧ pick3.rsUnit r = 3)) ∧
    (pick3.picks.get 3).skip = 0 ∧ (pick3.picks.get 3).gate = none ∧ (pick3.picks.get 3).closed = [] ∧ pick3.isStop 3 = false ∧
    (∀ k : PickId, ¬ (pick3.isStop k = true ∧ pick3.rFld (Reg.pickIvl k) 15 3 = 3)) ∧ pick3.rBit (Reg.pickCtrl 3) 13 = true ∧
    (pick3.picks.get 3).queue.length < 2048 ∧ (pick3.lines.get (lineA 3)).hitAt ≠ some (pick3.captureTick ⟨40, false⟩) ∧
    pick3.tdcBad (lineA 3) 40 (pick3.captureTick ⟨40, false⟩) = false ∧ (40 : Code).val ≠ 383 ∧
    (pick3.lines.get (lineB 3)).hitAt ≠ some (pick3.captureTick ⟨60, true⟩) ∧
    pick3.tdcBad (lineB 3) 60 (pick3.captureTick ⟨60, true⟩) = false ∧ pick3.pickBlind 3 (some ⟨40, false⟩) none = false := by
  decide +kernel

theorem witness_PickEdges_dead :
    (pick3.picks.get 3).last = none ∧ (∀ v, deadTime none v = false) ∧ deadTime (some 7) 7 = true ∧
    (pick3.setReg (Reg.pickCtrl 3) 0x81500).rBit (Reg.pickCtrl 3) 13 = false ∧
    0 < ((onPick pick3 3 fun x => { x with skip := 1 }).picks.get 3).skip := by
  refine ⟨by decide +kernel, fun _ => rfl, by decide +kernel, by decide +kernel, by decide +kernel⟩

theorem witness_PickEdges_full : (List.replicate 2048 (0 : BitVec 100)).length = 2048 := List.length_replicate

theorem witness_PickControl : up.hostOpen (Reg.pickCtrl 3) = true ∧ fld 0xB4000 14 4 = 13 ∧ fld 0xB0000 14 4 = 12 ∧
    up.rBit (Reg.pickCtrl 3) 19 = false ∧ pick3.hostOpen (Reg.pickCtrl 3) = true ∧ pick3.rBit (Reg.pickCtrl 3) 19 = true ∧
    ((onPick pick3 3 fun x => { x with old := some 0x83500 }).picks.get 3).old.isSome = true ∧ (pick3.picks.get 3).old = none ∧
    pick3.rBit Reg.pnlCtrl 19 = false ∧ (∀ r : SlotId, pick3.rsState r = RS.disabled) := by
  decide +kernel

/-- `pick3` with LOS_EXP 5, 32 µs after its enable. -/
def pickLate : State := { pick3.setReg (Reg.pickCtrl 3) 0x80500 with nut := usNut 32 }

theorem witness_PickControl_los : pickLate.rBit (Reg.pickCtrl 3) 19 = true ∧ pickLate.rBit (Reg.pickStat 3) 19 = false ∧
    (pickLate.picks.get 3).seen = none ∧
    0 ≤ (pickLate.nut - ((pickLate.picks.get 3).enAt + BitVec.ofNat 80 (2 ^ min 21 (pickLate.rFld (Reg.pickCtrl 3) 8 5) * 65536000))).toInt := by
  decide +kernel

/-- `pick3` with two entries; then with their drain to course 1 or to receive ring 7. -/
def pickQ : State := onPick pick3 3 fun x => { x with queue := [0x123456789ABCDEF0123456789, 5] }
def drainCrs : State := regs pickQ [(Reg.pickDrain 3, 0x50800), (Reg.crsRun 1, 0x10000), (Reg.pickDrainBase 3, 0x1237)]
def drainCrs1 : State := (drainCrs.storeData 1 0x1230 [5]).storeData 1 0x1231 [2]
def drainHost : State := regs pickQ [(Reg.pickDrain 3, 0x8E800), (Reg.devRxCtrl 7, 0x8000C), (Reg.devPcieStat, 0xC0000)]

theorem witness_PickQueues_host : pickQ.hostReads (Reg.pickQpop 3) = true ∧ pickQ.rFld (Reg.pickDrain 3) 18 2 = 0 ∧ pickQ.headBad 3 = false ∧
    (pickQ.picks.get 3).queue ≠ [] ∧ (pick3.picks.get 3).queue = [] ∧ pickQ.hostOpen (Reg.pickDrain 3) = true ∧
    fld 0xC1000 18 2 = 3 ∧ fld 0x00600 9 4 = 3 ∧ fld 0x01E00 9 4 = 15 ∧ fld 0x00800 9 4 = 4 ∧ fld 0x01C00 9 4 = 14 ∧
    drainCrs1.hostOpen (Reg.pickDrainBase 3) = true ∧ drainCrs1.rFld (Reg.pickDrain 3) 18 2 = 1 ∧
    drainCrs1.bad.contains (.dataSram, (drainCrs1.drainCourse 3).val, 0x1230) = false ∧ fld 0x01230 3 16 * 8 = 0x1230 ∧
    (drainCrs1.course (drainCrs1.drainCourse 3)).data.read? 0x1230 = some 5 ∧
    (drainCrs1.course (drainCrs1.drainCourse 3)).data.read? 0x1231 = some 2 := by decide +kernel

theorem witness_PickQueues_course : drainCrs1.rFld (Reg.pickDrain 3) 18 2 = 1 ∧ drainCrs1.drainCourse 3 = 1 ∧ drainCrs1.headBad 3 = false ∧
    (drainCrs1.course 1).data.read? ((drainCrs1.drainBase 3 + 1) % 524288) = some 2 ∧ drainCrs1.crsState 1 ≠ CS.reset ∧
    drainCrs1.powered 2 = true ∧ (regs drainCrs1 [(0x2084, 0xFFB)]).powered 2 = false ∧ drainCrs1.bad = [] ∧
    ((5 : BitVec 16) - 2).toNat < 2 ^ drainCrs1.rFld (Reg.pickDrain 3) 9 4 ∧ 2 ^ drainCrs1.rFld (Reg.pickDrain 3) 9 4 ≤ ((18 : BitVec 16) - 2).toNat ∧
    drainCrs1.rFld (Reg.pickDrain 3) 9 4 = 4 ∧ drainCrs1.waiterOf 1 3 = none ∧ drainCrs1.rFld (Reg.crsEvt 1 3) 0 16 < 65535 ∧
    (drainCrs1.setBit (Reg.pickStat 3) 14 true).rBit (Reg.pickStat 3) 14 = true ∧ drainCrs1.rBit (Reg.pickStat 3) 14 = false := by
  decide +kernel

theorem witness_PickQueues_ring : drainHost.rFld (Reg.pickDrain 3) 18 2 = 2 ∧ drainHost.rFld (Reg.pickDrain 3) 13 3 = 7 ∧
    drainHost.rxRoom 7 16 = true ∧ drainHost.rxPad 7 16 = 0 ∧ drainHost.headBad 3 = false ∧
    (drainHost.setReg (Reg.devRxCtrl 7) 0).rxRoom 7 16 = false := by decide +kernel

/-- An interval stamp; `pick3` with one stop at 30000000000 and the starts `l`. -/
def ivl (t : Nut) (n : BitVec 12) : IvlStamp := ⟨t, n, 0x4000 + n.zeroExtend 20, false⟩
def intervals (l : List IvlStamp) (nut : Nut) : State :=
  { onPick up 3 (fun x => { x with stops := [ivl 30000000000 9], starts := l }) with nut := nut }

theorem witness_Intervals : (up.reg (Reg.pickIvlWin 3)).toNat = 100 ∧
    0 < ((30007208961 : Nut) - (30000000000 + BitVec.ofNat 80 (65536 * 100 + 655360))).toInt ∧
    ((30007208960 : Nut) - (30000000000 + BitVec.ofNat 80 (65536 * 100 + 655360))).toInt ≤ 0 ∧
    ivlDist (ivl 30000000000 9) (ivl 30000000654 1) < 655 ∧ 655 ≤ ivlDist (ivl 30000000000 9) (ivl 29999999345 1) ∧
    ivlDist (ivl 30000000000 9) (ivl 30006553600 1) ≤ 65536 * 100 ∧ 65536 * 100 < ivlDist (ivl 30000000000 9) (ivl 30006553601 1) ∧
    ((intervals [ivl 29999999000 1] 30007208961).picks.get 3).ovf = false := by unfold ivlDist; decide +kernel

/-- An open gate. -/
def gate (o : Nut) (auto : Bool) : Gate := ⟨o, auto, 1000, 0, none, none, 0, 0, 0, 0, 0, 0, false, false, false⟩
/-- An FMU changed. -/
def onFmu (s : State) (p : FmuId) (f : Fmu → Fmu) : State := s.setFmu p (f (s.fmus.get p))

theorem witness_Gates :
    (let s := onPick ({ up with nut := msNut 1000 } : State) 3 fun x => { x with gate := some (gate 0 true) }
     s.gateOf (.pick 3) = some (gate 0 true) ∧ 0 ≤ (s.nut - (0 + BitVec.ofNat 80 (1000 * 65536000000))).toInt) ∧
    (let s := onFmu ({ up with nut := secNut 1000 } : State) 3 fun x => { x with gate := some (gate 0 false) }
     s.gateOf (.fmu 3) = some (gate 0 false) ∧ s.pluckCloses (.fmu 3) = false ∧ 0 ≤ (s.nut - (0 + BitVec.ofNat 80 (1000000 * 65536000000))).toInt) ∧
    up.gateOf (.pick 3) = none ∧ up.closedOf (.fmu 3) = [] := by decide +kernel

/-- FMU 0 measures 10 MHz and has a closed gate of five samples. -/
def fmu5 : State :=
  let s := onFmu (regs up [(Reg.brgFmuCtrl 0, 0x81500)]) 0 fun x =>
    { x with closed := [⟨⟨0, false, 1000, 0, some 6553600, some 0, 5, 5, 10, 30, 65536000, 30 * 6553600 - 30, false, false, false⟩, 65536000000, false⟩] }
  s.setRegN (Reg.fmuBase 0 + 0x18) 2 2560000000

theorem witness_GateResult : fmu5.closedOf (.fmu 0) ≠ [] ∧ ({ fmu5 with nut := 65536000000 } : State).allArrived (.fmu 0) 65536000000 = true ∧
    ({ fmu5 with nut := 65535836160 } : State).allArrived (.fmu 0) 65536000000 = false ∧ (∀ r : SlotId, fmu5.takesGates r (.fmu 0) = false) ∧
    fmu5.regN (unitBase (.fmu 0) + 0x18) 2 = 2560000000 ∧
    roundHaz (100000000000000 * ((2 : Int) ^ (24) * 1000000000 * 50 - (5 * (30 * 6553600 - 30) - 655360000) * 2560000000))
      ((5 * (30 * 6553600 - 30) - 655360000) * 2560000000) = 45776388 := by decide +kernel

/-- FMU 0 with an open gate that has its first edge. -/
def fmuGate : State :=
  onFmu (regs up [(Reg.brgFmuCtrl 0, 0x81500)]) 0 fun x =>
    { x with gate := some ⟨0, false, 1000, 0, some 6553600, some 0, 5, 2, 7, 30, 11, 13, false, false, false⟩ }

theorem witness_FmuEdges : fmuGate.rBit (Reg.brgFmuCtrl 0) 19 = true ∧ fmuGate.fmuClock 0 = true ∧ fmuGate.rBit (Reg.brgFmuStat 0) 19 = false ∧
    (fmuGate.fmus.get 0).closed = [] ∧ (fmuGate.fmus.get 0).skip = 0 ∧ some 0 ≠ some (fmuGate.nut.toNat / 671088640) ∧
    0 ≤ (fmuGate.nut - 0).toInt ∧ (fmuGate.fmus.get 0).last = none ∧ up.rBit (Reg.brgFmuCtrl 4) 19 = false ∧
    (let s := up.setReg (Reg.brgFmuCtrl 4) 0x81500
     s.rBit (Reg.brgFmuCtrl 4) 19 = true ∧ s.fmuClock 4 = false ∧ s.rBit (Reg.brgFmuStat 4) 19 = false) := by decide +kernel

/-- The panel on, its queue empty, DEB 3, no binding; and the same with the panel off. -/
def panelOn : State := up.setReg Reg.pnlCtrl 0x80300
def panelOff : State := up.setReg Reg.pnlCtrl 0x00300

/-- The panel off on the tick that ends a slot of TOUCH3; HC1's line was swapped to the table it had. -/
def touch3 : State :=
  { panelOff with nut := 10737418240, lines := vset panelOff.lines 65 { panelOff.lines.get 65 with out := (panelOff.lines.get 65).t0 } }

theorem witness_HouseAndPanel : panelOn.hostOpen Reg.pickHc0Ctrl = true ∧ panelOn.rBit Reg.pickHc0Ctrl 18 = false ∧
    (panelOn.setReg Reg.pickHc0Ctrl 0x40001).rBit Reg.pickHc0Ctrl 18 = true ∧ (panelOn.panel.pads.get 3).bad < 7 ∧
    touch3.touchEnds 3 = true ∧ touch3.touchEnds 2 = false ∧ (touch3.panel.pads.get 3).bad < 7 ∧ touch3.tdcBad 65 40 0 = false ∧
    (40 : Code).val ≠ 383 ∧ touch3.rBit Reg.pnlCtrl 19 = false ∧
    panelOff.nut.toNat % 65536000000 = 0 ∧ panelOff.rBit Reg.pnlCtrl 19 = false ∧ State.reset.nutRun = false ∧
    panelOn.rBit Reg.pnlCtrl 19 = true ∧ panelOn.panel.queue = [] ∧ (∀ i : Fin 32, panelOn.rBit (Reg.pnlBind i) 19 = false) ∧
    panelOn.panel.antO.level = false ∧ panelOn.panel.antS.level = false ∧ panelOn.panel.antO.run = 0 ∧ panelOn.rFld Reg.pnlAnt 18 2 = 0 ∧
    panelOn.hostReads Reg.pnlEvt = true := by decide +kernel

/-- Whatever the line's insertion delay is, some capture tick gives a crossing at the slot's start. -/
theorem witness_TouchCharge :
    ∃ nc, (touch3.lineStamp 65 40 nc - (touch3.nut - BitVec.ofNat 80 (16384 * 163840))).toInt = 0 := by
  refine ⟨touch3.nut - BitVec.ofNat 80 (16384 * 163840) + BitVec.ofInt 80 (touch3.active 65).ins +
    BitVec.ofNat 80 ((touch3.active 65).entry 40).2.2, ?_⟩
  have h : ∀ a b c : Nut, a + b + c - c - b - a = 0 := by intro a b c; bv_omega
  have g : ∀ nc, touch3.tableAt 65 nc = touch3.active 65 := by
    intro nc; unfold State.tableAt; split <;> rfl
  unfold State.lineStamp
  rw [g, show ((40 : Code).val) = 40 from rfl, h]
  decide

theorem witness_LongPress :
    0 ≤ (msNut 2000 - ((0 : Nut) + BitVec.ofNat 80 (panelOn.rFld Reg.pnlLong 0 14 * 65536000000))).toInt ∧
    (msNut 1999 - ((0 : Nut) + BitVec.ofNat 80 (panelOn.rFld Reg.pnlLong 0 14 * 65536000000))).toInt < 0 := by decide +kernel

/-! ### Plucks -/

/-- A request for a pluck with a nut target. -/
def pluckReq (ctrl dest : Word) (tgt per w : Nat) (arm : Bool) : PluckReq :=
  { arm := arm, disarm := false, armp := none,
    cfg := { ctrl := ctrl, dest := dest, tgt := BitVec.ofNat 100 tgt, per := BitVec.ofNat 60 per, arg0 := 7, arg1 := 9, width := BitVec.ofNat 40 w } }

/-- General pluck 5 with a request on its arm tick. -/
def arming (r : PluckReq) : State := (up.setPluck 5 { up.plucks.get 5 with pend := some r }).setBit (Reg.plkStat 5) 18 true

/-- R136's and R138's operands at their bounds: ACTION 7, LATE 3, a disabled tuning, a period below 1 ms, SKIP without a period, no DEST. -/
theorem witness_PluckArming_refused :
    fld 0x70000 16 4 = 7 ∧ fld 0x00300 8 2 = 3 ∧ bitOf 0x08000 15 = true ∧ up.rBit (Reg.tunCtrl (fld 0x0F800 11 4)) 19 = false ∧
    (pluckReq 0x80 0 0 65535999 0 true).cfg.per.toNat < 65536000 ∧ bitOf 0x200 7 = false ∧ fld 0x200 8 2 = 2 ∧ fld 0x50000 16 4 = 5 ∧
    ((arming (pluckReq 0x70000 0 0 0 0 true)).plucks.get 5).pend = some (pluckReq 0x70000 0 0 0 0 true) ∧
    ((arming (pluckReq 0x70000 0 0 0 0 true)).plucks.get 5).next = none ∧ (pluckReq 0x70000 0 0 0 0 true).armp = none ∧
    (pluckReq 0x70000 0 0 0 0 true).xing = 49 ∧ up.isVoid 49 = false ∧ up.rBit Reg.plkGstat 19 = false := by
  decide +kernel

theorem witness_PluckArming_ticks :
    2 ^ 47 ≤ (BitVec.ofNat 80 (65536000000 + 2 ^ 47) - up.nut).toInt.natAbs ∧ up.nut.toNat % 163840 = 0 ∧
    up.nut.toNat ≤ tickOf 65535836161 ∧ tickOf 65535836160 < up.nut.toNat ∧ fld 0x100 8 2 = 1 ∧ fld 0x280 8 2 = 2 ∧ bitOf 0x280 15 = false ∧
    up.nut.toNat + 2 * 65536000 < 2 ^ 79 ∧ up.genDue 5 = false := by unfold tickOf; decide +kernel

theorem witness_PluckArming_writes : up.hostOpen (Reg.plkCmd 255) = true ∧ up.hostOpen (Reg.plkEdgeCmd 7) = true ∧ bitOf 0x80000 19 = true ∧
    bitOf 0x80000 17 = false ∧ (up.plucks.get 255).pend = none ∧ up.isVoid 49 = false ∧
    ((arming (pluckReq 0 0 0 0 0 true)).plucks.get 5).pend ≠ none ∧ (up.edges.get 7).pluck.pend = none := by
  decide +kernel

/-- Edge pluck 2, its output enabled, with a request on its arm tick. -/
def edgeArming (r : PluckReq) : State :=
  ((up.setEdge 2 { up.edges.get 2 with pluck := { (up.edges.get 2).pluck with pend := some r } }).setBit (Reg.plkEdgeStat 2) 18 true).setBit
    (Reg.plkEdgeCtrl 2) 19 true

theorem witness_PluckArming_edges :
    ((edgeArming (pluckReq 0 0 65536000000 0 5 true)).edges.get 2).pluck.pend = some (pluckReq 0 0 65536000000 0 5 true) ∧
    (pluckReq 0 0 0 0 0 true).cfg.width = 0 ∧ (65536000 : Nat) ≤ 400 * 163840 ∧ ¬ (65536000 : Nat) ≤ 399 * 163840 ∧
    (edgeArming (pluckReq 0 0 65536000000 0 5 true)).nut.toNat ≤ ((edgeArming (pluckReq 0 0 65536000000 0 5 true)).edgeTick 2 65536000000).toNat ∧
    ((edgeArming (pluckReq 0 0 1 0 5 true)).edgeTick 2 163841).toNat < (edgeArming (pluckReq 0 0 1 0 5 true)).nut.toNat ∧
    up.edgeDue 2 = false ∧ up.rBit (Reg.plkEdgeCtrl 2) 19 = false := by decide +kernel

/-- Two marked plucks on enabled tuning 0, with a re-conversion pass running. -/
def marked : State :=
  let s := (up.setPluck 5 { up.plucks.get 5 with mark := true, tgt := BitVec.ofNat 100 (2 * 2 ^ 52) }).setPluck 6 { up.plucks.get 6 with mark := true }
  (s.setBit (Reg.plkStat 5) 19 true).setBit Reg.plkGstat 19 true

theorem witness_PluckArming_reconversion : (marked.plucks.get 5).mark = true ∧ (marked.plucks.get 6).mark = true ∧
    marked.rBit Reg.plkGstat 19 = true ∧ marked.rBit (Reg.tunCtrl 0) 19 = true ∧ (up.plucks.get 7).mark = false ∧
    marked.nut.toNat ≤ tickOf (nutOfReading (marked.anchor 0) (marked.plucks.get 5).tgt) ∧
    tickOf (nutOfReading (marked.anchor 0) (marked.plucks.get 5).tgt) < 2 ^ 80 := by unfold tickOf; decide +kernel

/-- General pluck 5 armed for a nut target. -/
def armed (ctrl dest : Word) (tgt per : Nat) (s : State) : State :=
  let s := s.setPluck 5 { s.plucks.get 5 with cfg := (pluckReq ctrl dest tgt per 0 true).cfg, tgt := BitVec.ofNat 100 tgt }
  (s.setBit (Reg.plkStat 5) 19 true).setRegN (Reg.plkNtgt 5) 4 (tgt % 2 ^ 80)

theorem witness_PluckFirings :
    (armed 0 0 65536000000 0 up).genDue 5 = true ∧ (∀ h : PluckId, h ≠ 5 → (armed 0 0 65536000000 0 up).genDue h = false) ∧
    (armed 0 0 65536000000 0 up).nut.toNat ≤ tickOf ((armed 0 0 65536000000 0 up).reg80 (Reg.plkNtgt 5)) ∧
    (armed 0 0 65535836160 0 up).genDue 5 = true ∧
    tickOf ((armed 0 0 65535836160 0 up).reg80 (Reg.plkNtgt 5)) < (armed 0 0 65535836160 0 up).nut.toNat ∧
    up.nut.toNat + 2 * 65536000 < 2 ^ 79 ∧ (∀ g : PluckId, up.genDue g = false) := by unfold tickOf; decide +kernel

theorem witness_PluckFirings_actions :
    (let s := (armed 0x10000 0 65536000000 0 up).setCrsState 0 CS.run
     s.genDue 5 = true ∧ s.nut.toNat % 163840 = 0 ∧ s.crsState (plkCourse 5) = CS.run ∧ (s.course (plkCourse 5)).startQ = [] ∧
     ∃ q ∈ ((s.onCourse 0 fun v => { v with startQ := [⟨5, 7, 0x80077, 0x99⟩] }).course (plkCourse 5)).startQ, q.pluck = 5) ∧
    (armed 0x10000 0 65536000000 0 up).crsState (plkCourse 5) ≠ CS.run ∧
    (let s := regs (armed 0x20000 1 65536000000 0 up) [(Reg.pickCtrl 0, 0x81500)]
     s.genDue 5 = true ∧ bitOf 1 0 = true ∧ s.rBit (Reg.pickCtrl 0) 19 = true ∧ s.rBit (Reg.pickCtrl 1) 19 = false) ∧
    (let s := regs (armed 0x40000 0 65536000000 0 up) [(Reg.dmpCtrl, 0x80004), (Reg.devPcieStat, 0xC0000)]
     s.rBit Reg.dmpCtrl 19 = true ∧ s.rBit Reg.dmpStat 18 = false ∧ s.hostUp = true ∧ s.dumpRoom = true ∧
     (s.setReg Reg.dmpWr 16).dumpRoom = false ∧ 6553600000 ≤ (s.nut - s.reg80 Reg.dmpLast).toNat) ∧
    (let s := ((armed 0x50000 1 65536000000 0 up).setBit (Reg.nutTdcLs 48) LS.ready true).setBit (Reg.nutTdcLs 49) LS.ready true
     destHasLine 1 48 = true ∧ s.powered (lineDomain 48) = true ∧ s.rBit (Reg.nutTdcLs 48) LS.ready = true ∧ s.swapOk 48 = true ∧
       destHasLine 1 50 = false) := by decide +kernel

/-- Edge pluck 2 armed for a nut target with WIDTH 40. -/
def edgeArmed (tgt : Nat) : State :=
  let s := (up.setReg (Reg.brgOutSql 2) 0).setEdge 2 { up.edges.get 2 with
    pluck := { (up.edges.get 2).pluck with cfg := (pluckReq 0 0 tgt 0 40 true).cfg, tgt := BitVec.ofNat 100 tgt } }
  ((s.setBit (Reg.plkEdgeStat 2) 19 true).setBit (Reg.plkEdgeCtrl 2) 19 true).setRegN (Reg.plkEdgeNtgt 2) 4 (tgt % 2 ^ 80)

theorem witness_EdgeOutputs : (edgeArmed 65536008000).edgeDue 2 = true ∧ up.edgeDue 2 = false ∧
    (edgeArmed 65536008000).edgeTick 2 ((edgeArmed 65536008000).reg80 (Reg.plkEdgeNtgt 2)) = (edgeArmed 65536008000).nut ∧
    (edgeArmed 65536008000).pulseRuns 2 = false ∧ (edgeArmed 65536008000).squelched 2 = false ∧ (edgeArmed 65536008000).rBit Reg.plkGstat 19 = false ∧
    ((edgeArmed 65536008000).setEdge 2 { (edgeArmed 65536008000).edges.get 2 with pulse := some ⟨65536000001, 0, 0, false, false⟩ }).pulseRuns 2 = true ∧
    (163840 : Nut).toNat % 163840 + 163840 ≤ (163840 : Nut).toNat ∧ 0 ≤ (up.nut - 65536000000).toInt ∧ (up.nut - 65536000001).toInt < 0 := by
  decide +kernel

/-- Output 2 owns the calibration with 16 edges taken. -/
def calibrating (sum : Int) : State := { up with house := { up.house with calOut := some 2, calN := 16, calSum := sum } }

theorem witness_EdgeCalibration : up.hostOpen (Reg.plkEdgeCtrl 7) = true ∧ up.rBit (Reg.plkEdgeStat 7) 19 = false ∧
    up.hostOpen (Reg.plkEdgeCmd 7) = true ∧ up.house.calOut = none ∧ up.house.calWait = [] ∧ (calibrating 0).house.calOut = some 2 ∧
    (calibrating 0).house.calN = 2 ^ ((calibrating 0).setReg (Reg.plkEdgeCal 2) 0x40000).rFld (Reg.plkEdgeCal 2) 16 3 ∧
    (calibrating 0).house.heldSel = none ∧ (calibrating 0).rBit (Reg.plkEdgeCal 2) 19 = false ∧
    (roundHaz (16 * 240 + 3) 16).natAbs ≤ 65536 ∧ (0 - roundHaz (roundHaz (16 * 240 + 3) 16) 80).natAbs ≤ 1023 ∧
    65536 < (roundHaz (-16 * 65537) 16).natAbs ∧ (calibrating 0).house.calFrom = 0 ∧
    0 ≤ (secNut 4 - (0 + BitVec.ofNat 80 (4 * 65536000000000))).toInt := by decide +kernel

/-! ### The bridge -/

/-- Slots 2 and 5 with a source; BRG_RS_STAT of slot r in state n; BRG_SEL_STAT in state n of slot r. -/
def slots25 : State := regs up [(Reg.brgRsCfg 2, 0x80490), (Reg.brgRsCfg 5, 0x80880)]
def rst (r n : Nat) (b : Word) : Nat × Word := (Reg.brgRsStat r, BitVec.ofNat 20 (n * 131072) ||| b)
def sst (st slot : Nat) : Nat × Word := (Reg.brgSelStat, BitVec.ofNat 20 (st * 131072 + slot * 4096))

/-- Slot 2 steers; its sample is due 1,500 ms after 0. -/
def steering (n : Nut) : State := { regs slots25 [rst 2 5 0, sst 1 2, (Reg.brgRsTmo 2, 1500)] with nut := n }

theorem witness_SlotTimers_sample : up.rsState 2 = RS.disabled ∧ (up.slots.get 2).hold = none ∧
    (steering (msNut 1500)).rsState 2 ≠ RS.disabled ∧ (steering (msNut 1500)).rBit (Reg.brgRsStat 2) RF.noSample = false ∧
    0 ≤ ((steering (msNut 1500)).nut - (0 + BitVec.ofNat 80 (1500 * 65536000000))).toInt ∧
    ((steering (msNut 1500 - 163840)).nut - (0 + BitVec.ofNat 80 (1500 * 65536000000))).toInt < 0 ∧
    (steering (msNut 1500)).rsSteers 2 = true ∧ (steering (msNut 1500)).rFld (Reg.brgRsStat 2) 7 5 = 0 ∧
    ((steering (msNut 1500)).slots.get 2).expired = false ∧ (steering (msNut 1500)).reg Reg.brgHoldoff ≠ 0 ∧
    (steering (msNut 1500)).rBit (Reg.brgRsStat 2) 16 = false ∧ (steering (msNut 1500)).rsSteers 5 = false := by decide +kernel

/-- Slot 2 in a state with its timers started at 0. -/
def timed (n : Nat) (b : Word) (nut : Nut) : State :=
  ({ regs slots25 [rst 2 n b, sst 2 2] with nut := nut }).slot 2 fun x => { x with hold := some 0, timer := some 0, been := true }

theorem witness_SlotTimers_expiries :
    (let s := timed 5 0x18000 (msNut 1000)
     (s.slots.get 2).hold = some 0 ∧ s.rBit (Reg.brgRsStat 2) 16 = true ∧ s.rFld (Reg.brgRsStat 2) 7 9 ≠ 0 ∧
       0 ≤ (s.nut - (0 + BitVec.ofNat 80 (s.rFld Reg.brgHoldoff 0 14 * 65536000000))).toInt ∧
       (s.nut - (163840 + BitVec.ofNat 80 (1000 * 65536000000))).toInt < 0) ∧
    (let s := timed 2 0 (secNut 10)
     (s.slots.get 2).timer = some 0 ∧ s.rFld (Reg.brgRsStat 2) 7 9 = 0 ∧ s.rsState 2 = RS.qualifying ∧
       0 ≤ (s.nut - (0 + BitVec.ofNat 80 (1000 * s.rFld Reg.brgQualTime 0 10 * 65536000000))).toInt) ∧
    (let s := timed 3 8 (secNut 300)
     s.rFld (Reg.brgRsStat 2) 7 9 = 0 ∧ s.rsState 2 = RS.wtr ∧
       0 ≤ (s.nut - (0 + BitVec.ofNat 80 (1000 * s.rFld Reg.brgWtr 0 12 * 65536000000))).toInt) := by decide +kernel

/-- R172: the end of a tick on which slot 2's timer came due, with and without a fault that has not yet held off. -/
theorem witness_SlotTimers_ends :
    ∀ s ∈ [timed 5 0x18000 (msNut 1000), timed 2 0 (secNut 10), timed 3 8 (secNut 300), timed 1 0x08000 0],
    let u := (s.brg fun b => { b with selDue := some false }).slot 2 fun x => { x with due := true }
    u.bridge.selDue = some false ∧ (u.slots.get 2).due = true ∧ (∀ q, q ≠ (2 : SlotId) → (u.slots.get q).due = false) := by
  decide +kernel

/-- Slots with a one-second gate ending at 10 s, as (slot, y, state), at the vote of 12 s. -/
def voting (l : List (SlotId × Int × Nat)) : State :=
  l.foldl (fun s e => (regs s [rst e.1 e.2.2 0, (Reg.brgRsCfg e.1, 0x60440)]).slot e.1 fun x => { x with gates := [(0, secNut 10, e.2.1)] })
    ({ regs up [sst 1 0] with nut := secNut 12 } : State)

/-- R176's vote of two and of three, near and far. -/
theorem witness_VotesAndSelection_votes : (voting []).nutRun = true ∧ (voting []).nut.toNat % 65536000000000 = 0 ∧
    (voting [(0, 41000, 5)]).slotFreq 0 = some 41000 ∧ (voting [(0, 41000, 5)]).rsState 3 = RS.disabled ∧
    (let s := regs up [rst 3 2 0]
     s.rsState 3 ≠ RS.disabled ∧ s.slotFreq 3 = none) := by decide +kernel

/-- Slot 5's cross-check from 0, against slot 2. -/
def crossCheck (n : Nut) : State :=
  ({ regs slots25 [rst 5 1 0x00110] with nut := n }).slot 5 fun x => { x with route := some 0, xref := some 2, xSum := 300, xN := 3, gSum := 10, gN := 2 }

theorem witness_VotesAndSelection_writes :
    ((crossCheck (secNut 10)).slots.get 5).route = some 0 ∧ ((crossCheck (secNut 10)).slots.get 5).xref.isSome = true ∧
    0 ≤ ((crossCheck (secNut 10)).nut - (0 + BitVec.ofNat 80 ((crossCheck (secNut 10)).rFld Reg.brgQualTime 0 10 * 65536000000000))).toInt ∧
    ((crossCheck (secNut 10 - 163840)).nut - (0 + BitVec.ofNat 80 (10 * 65536000000000))).toInt < 0 ∧
    (roundHaz (300 * 2 - 10 * 3) (3 * 2 : Nat)).natAbs ≤ ((crossCheck 0).reg (Reg.brgRsXlim 5)).toNat * 65536 ∧
    up.hostOpen (Reg.brgRsCfg 15) = true ∧ fld 0xA0000 17 3 = 5 ∧ fld 0x00400 17 3 = 0 ∧ fld 0x80400 17 3 = 4 ∧ fld 0x80400 6 4 ≠ 15 ∧
    (∀ p : PickId, up.rBit (Reg.pickStat p) 19 = false) ∧ (∀ f : FmuId, up.rBit (Reg.brgFmuStat f) 19 = false) ∧
    up.hostOpen (Reg.brgRsCmd 15) = true ∧ (regs up [rst 2 1 0]).rsState 2 = RS.fault ∧ up.hostOpen Reg.brgSelCtrl = true ∧
    fld 0xC0000 18 2 = 3 ∧ fld 0x20000 18 2 ≠ 3 := by decide +kernel

/-- Both slots AVAILABLE, in HOLDOVER, or TRACKING slot 2. -/
def choosing (l : List (Nat × Word)) : State := regs slots25 ([rst 2 4 0, rst 5 4 0, sst 4 0] ++ l)

theorem witness_VotesAndSelection_selection : (choosing []).selState = BS.holdover ∧ (choosing []).rFld Reg.brgSelCtrl 18 2 = 0 ∧
    (choosing [(Reg.brgSelCtrl, 0x80000)]).rFld Reg.brgSelCtrl 18 2 = 2 ∧ (choosing []).rsCandidate 2 = true ∧
    (choosing []).rsCandidate 5 = true ∧ (choosing []).rsRank 2 < (choosing []).rsRank 5 ∧ (∀ r, up.rsCandidate r = false) ∧
    (let s := choosing [rst 2 5 0, sst 1 2, (Reg.brgSelCtrl, 0x20000)]
     s.selState = BS.tracking ∧ s.rsState s.selSlot = RS.selected ∧ s.rsHeld s.selSlot = false ∧ s.rsCandidate s.selSlot = true ∧
       s.rBit Reg.brgSelCtrl 17 = true) ∧
    (let s := (choosing [rst 2 1 0, rst 5 1 0, sst 1 2]).brg fun b => { b with tracked := true }
     s.selState = BS.tracking ∧ s.rsState s.selSlot ≠ RS.selected ∧ s.bridge.tracked = true ∧ ∀ r, s.rsCandidate r = false) := by
  decide +kernel

theorem witness_LoopUpdates : (let s : State := { up with nut := msNut 3 }
     s.nutRun = true ∧ s.bridge.updAt ≠ some s.nut ∧ s.nut.toNat % 65536000000 = 0 ∧ s.selState = BS.freerun ∧ (∀ k : TunId, s.isChild k = false) ∧
       s.nut.toNat % 65536000000000 ≠ 0) ∧
    (let s : State := { regs up [sst 4 0] with nut := secNut 112729 }
     s.nutRun = true ∧ s.nut.toNat % 65536000000000 = 0 ∧ s.selState = BS.holdover ∧
       (s.nut - s.bridge.hoAt).toNat / 65536000000000 < 2 ^ 40) ∧
    (let s := up.brg fun b => { b with accN := 1000, accBad := false }
     s.bridge.accBad = false ∧ s.bridge.accN = 1000) ∧ up.bridge.accN ≠ 1000 ∧
    (let s := regs slots25 [(Reg.brgRsCfg 2, 0x60440), sst 1 2]
     s.selState = BS.tracking ∧ s.isTimeSlot s.selSlot = false) := by decide +kernel

/-- R54: child 1 of T0 runs at the top of the rate's range, so T0 can take no rate above its own. -/
theorem witness_LoopUpdates_range :
    let s : State := { regs up [(Reg.tunAncRate 1, 0xFFFFF), (Reg.tunAncRate 1 + 4, 0x7FFFF), (Reg.tunStatus 1, 0x40000)] with nut := msNut 3 }
    s.isChild 1 = true ∧ fitsSigned 40 (1 + (s.reg40 (Reg.tunAncRate 1)).toInt) = false ∧ (1 : Int) ≠ (s.reg40 (Reg.tunAncRate 0)).toInt := by
  decide +kernel

/-- A step requested, and a step sequence whose squelch starts or has started at 0. -/
def stepping (b : Word) (at_ q : Option Nut) (n : Nut) : State :=
  ({ regs up [(Reg.brgLoopStat, b)] with nut := n }).brg fun x => { x with stepAt := at_, stepQ := q }

theorem witness_StepSequence : up.hostOpen Reg.brgStepCmd = true ∧ up.rBit Reg.brgLoopStat 17 = false ∧
    (stepping 0x20000 none none 0).rBit Reg.brgLoopStat 17 = true ∧ (stepping 0x20000 none none 0).rBit Reg.brgLoopStat 16 = false ∧
    (let s := stepping 0x10000 (some 0) none 32768000000000
     s.bridge.stepAt = some 0 ∧ s.bridge.stepQ = none ∧ 0 ≤ (s.nut - (0 + 655360000000)).toInt ∧ s.halfSecond s.nut = true) ∧
    (stepping 0x10000 (some 0) none 65536000000000).halfSecond 65536000000000 = false ∧
    (let s := stepping 0x10000 (some 0) (some 0) 16384000000000
     s.bridge.stepQ = some 0 ∧ 0 ≤ (s.nut - (0 + 16384000000000)).toInt ∧ s.bridge.stepped = false ∧ s.rBit (Reg.tunStatus 0) 17 = false ∧
       (s.tunings.get 0).host = none ∧ s.isVoid 55 = false ∧ (s.nut - (0 + 65536000000000)).toInt < 0) ∧
    (0 : Int) ≤ ((stepping 0x10000 (some 0) (some 0) 65536000000000).nut - (0 + 65536000000000)).toInt ∧
    (let s := up.setEdge 3 { up.edges.get 3 with unseq := some up.nut }
     (s.edges.get 3).unseq = some up.nut ∧ 0 ≤ (s.nut - up.nut).toInt) := by decide +kernel

theorem witness_OutputSignals : up.hostOpen (Reg.brgFoutM 3) = true ∧ up.hostOpen (Reg.brgFoutDiv 0) = true ∧
    up.commitValue (Reg.brgFoutM 1) 3 0xB40 % 2 ^ 54 = 45 * 2 ^ 46 ∧ up.commitValue (Reg.brgFoutM 1) 3 0xF00 % 2 ^ 54 = 15 * 2 ^ 48 ∧
    up.commitValue (Reg.brgFoutM 1) 3 0xB3F % 2 ^ 54 < 45 * 2 ^ 46 ∧ 15 * 2 ^ 48 < up.commitValue (Reg.brgFoutM 1) 3 0xF01 % 2 ^ 54 ∧
    6 ≤ up.commitValue (Reg.brgFoutDiv 1) 2 1 % 2 ^ 40 ∧ up.commitValue (Reg.brgFoutDiv 1) 2 0 % 2 ^ 40 < 6 ∧
    (regs up [(Reg.brgFoutCtrl 1, 0x80000)]).rBit (Reg.brgFoutCtrl 1) 19 = true ∧ up.rBit (Reg.brgFoutCtrl 1) 19 = false ∧
    up.nutRun = true ∧ (let s : State := { up with nut := msNut 900 }
     s.tenthBefore s.irigTun = true) ∧ (let s : State := { up with nut := msNut 900 + 163840 }
     s.tenthBefore s.irigTun = false) ∧
    (let f : IrigFrame := ⟨0, 0, 0, irigFrame 0 5 false 0, 0, true, false⟩
     let s : State := { up with irig := vset up.irig 2 (some f) }
     s.irig.get 2 = some f ∧ s.hc0Watches 2 = false ∧ 0 ≤ (s.nut - (f.at_ + irigOffset f.el f.edge)).toInt ∧
       ((0 : Nut) - (163840 + irigOffset f.el f.edge)).toInt < 0) := by decide +kernel

/-- Time-of-day unit 0 sends ZDA records 100 ms into each second of T0. -/
def todUp : State := { regs up [(Reg.brgTodCtrl 0, 0x80064), (Reg.brgTodBaud 0, 1)] with nut := msNut 1100 }

/-- The on-time point of the second that unit 0 is to report. -/
def todPoint : Nut := todUp.onTime (todUp.todTun 0) (todUp.nut - BitVec.ofNat 80 (100 * 65536000000))

theorem witness_OutputSignals_records : todUp.nutRun = true ∧ todUp.rBit (Reg.brgTodCtrl 0) 19 = true ∧
    todUp.secondAt (todUp.todTun 0) todPoint = (1, false) ∧ (todUp.tods.get 0).sec.any (sameSecond todPoint) = false ∧
    todUp.edgeLost 0 todPoint = false ∧ 0 ≤ (todUp.nut - (todUp.tods.get 0).until_).toInt ∧
    (BitVec.ofNat 80 ((zdaRecord false 1 false).length * 10 * 65536000000000 / baudRate 1)).toNat < 65536000000000 ∧
    up.rBit (Reg.brgTodCtrl 1) 19 = false ∧
    (let s := todUp.setEdge 0 { todUp.edges.get 0 with lostX := [todPoint] }
     s.edgeLost 0 todPoint = true ∧ s.onTime (s.todTun 0) (s.nut - BitVec.ofNat 80 (100 * 65536000000)) = todPoint) ∧
    (let s : State := { todUp with tods := vset todUp.tods 0 { todUp.tods.get 0 with sec := some todPoint } }
     (s.tods.get 0).sec.any (sameSecond todPoint) = true) ∧
    (let s : State := { todUp with tods := vset todUp.tods 0 { todUp.tods.get 0 with until_ := msNut 1200 } }
     (s.tods.get 0).sec.any (sameSecond todPoint) = false ∧ (s.nut - (s.tods.get 0).until_).toInt < 0) := by decide +kernel

/-! ### The harp -/

/-- The harp runs with both bands, its clock is good and its map valid. -/
def harpUp : State := regs up [(Reg.harpCtrl, 0x90000), (Reg.harpStat, 0xC0000)]
def onWindow (s : State) : State := { s with nut := 524288 * 163840 * 3 }

theorem witness_HarpInput : up.harpOn = false ∧ harpUp.harpOn = true ∧ harpUp.clkOk = true ∧ harpUp.harp.run = none ∧
    ¬ harpUp.clkTick ∧ (onWindow harpUp).clkTick ∧ (onWindow (harpUp.setReg Reg.harpStat 0)).clkTick ∧
    (harpUp.setReg Reg.harpStat 0).clkOk = false ∧ harpUp.harp.wins = [] ∧ harpUp.harp.queue = [] ∧
    harpUp.rBit Reg.harpCtrl 16 = true ∧ harpUp.isVoid 48 = false ∧
    ((([⟨-8, 3, 1000⟩, ⟨2, -3, 1047576⟩] : List SampleRun).map SampleRun.n).sum = 2 ^ 20 ∧ (0 : BitVec 48).toNat % 2 ^ 20 = 0 ∧
      ((0 : BitVec 48).toNat + 2 ^ 48 - harpUp.harp.si) % 2 ^ 48 < 1024 ∧ harpUp.harp.statU ≠ some (0 : BitVec 48).toNat) ∧
    harpUp.hostReads Reg.harpSi = true ∧ harpUp.hostOpen Reg.harpCtrl = true ∧ harpUp.harp.sreqDue = false ∧
    harpUp.rBit Reg.harpCtrl 19 = true ∧ bitOf 0x10000 19 = false ∧ up.rBit Reg.harpCtrl 19 = false := by
  unfold State.clkTick; decide +kernel

/-- A harp whose last 65,536 markers were each stamped at 0. -/
def fitting : State := harpUp.onHarp fun v => { v with markN := 4096, marks := List.replicate 65536 0 }

theorem witness_HarpInput_map : fitting.harpOn = true ∧ fitting.clkOk = true ∧ 4096 ≤ fitting.harp.markN ∧
    fitting.harp.marks = 0 :: List.replicate 65535 0 ∧ fitting.harp.marks.length = 65536 ∧ fitting.harp.settled := by
  refine ⟨by decide +kernel, by decide +kernel, by decide +kernel, ?_, ?_, Or.inr (by decide +kernel)⟩
  · exact List.replicate_succ
  · exact List.length_replicate

/-- A request to commit of signal 0, PRN 12, with AUTO, N 1 and THR 64, in a window of `2 × codew + 1` code phases by `2 × kd + 1`
bins around code phase 100; and the request as the strum reads it. -/
def asked (codec codew kd : Nat) : State :=
  { harpUp with wrShadow := [(Reg.harpSreq, BitVec.ofNat 20 codew), (Reg.harpSreq + 4, BitVec.ofNat 20 codec),
                             (Reg.harpSreq + 12, BitVec.ofNat 20 (16384 + 64 * 64 + kd))] }
def request (codew kd : Nat) : Search :=
  { (asked 100 codew kd).searchOf ((asked 100 codew kd).commitValue Reg.harpSreq 5 0x03300) with seq := 1 }

/-- A search at a pass; its samples have come: a pass of 1 ms began at SI 0. -/
def searching (codew kd pass : Nat) : State :=
  harpUp.onHarp fun v => { v with mainOn := true, run := some ⟨request codew kd, pass, false, pass⟩, passSi := 0, passMs := 1, si := 61440 }

theorem witness_HarpSearches_commits : (asked 100 4 1).hostOpen (Reg.harpSreq + 16) = true ∧ (asked 100 4 1).harpOn = true ∧
    (asked 100 4 1).harp.queue = [] ∧ prnOk (request 4 1).sig (request 4 1).prn = true ∧
    ((asked 100 4 1).commitValue Reg.harpSreq 5 0x03300) / 2 ^ 80 % 128 ≤ 95 ∧ (request 4 1).window = true ∧ (request 4 1).codew ≠ 0 ∧
    (request 4 1).codec < codeSteps (request 4 1).sig ∧ (asked 100 4 1).rBit Reg.harpCtrl 16 = true ∧ (asked 100 4 1).mayPass = true ∧
    (asked 100 4 1).harp.mainOn = false ∧ (asked 100 4 1).harp.small = [] ∧ (searching 4 1 0).harp.mainOn = true ∧
    codeSteps 0 ≤ ((asked 2046 4 1).searchOf ((asked 2046 4 1).commitValue Reg.harpSreq 5 0x03300)).codec ∧
    ((asked 100 4 1).setReg Reg.harpCtrl 0).harpOn = false ∧ harpUp.hostOpen Reg.harpSqCmd = true ∧ (searching 4 1 0).harp.wins = [] := by
  decide +kernel

/-- Sums of 27 cells that detect and that do not. -/
def peak27 : List Nat := List.replicate 13 16 ++ [200] ++ List.replicate 13 17
def flat27 : List Nat := List.replicate 27 16

theorem witness_HarpSearches_passes : (searching 4 1 0).mayPass = true ∧ (searching 4 1 0).passDone = true ∧
    ((searching 4 1 0).onHarp fun v => { v with si := 0 }).passDone = false ∧
    peak27.length = min 8192 ((request 4 1).cells - 8192 * 0) ∧ flat27.length = peak27.length ∧ (searching 4 1 0).hears (request 4 1).sig = true ∧
    (noiseFloor (request 4 1).codes false 0 (0 + (bestCell peak27).1) peak27).2 ≠ 0 ∧ detects 64 (request 4 1).codes false 0 peak27 ∧
    (noiseFloor (request 4 1).codes false 0 (0 + (bestCell flat27).1) flat27).2 ≠ 0 ∧ ¬ detects 64 (request 4 1).codes false 0 flat27 ∧
    (request 4 1).thr = 64 ∧ (request 4 1).window = true ∧ (request 4 1).passes ≤ 0 + 1 ∧ (request 4 1).reps = 0 ∧
    (searching 4 1 0).harp.queue = [] ∧ (request 4 1).sig < 4 ∧ (request 4 1).prn < 256 ∧ (request 4 1).seq < 65536 ∧
    ((searching 4 1 0).rFld Reg.harpSresWr 0 16 + 65536 - (searching 4 1 0).rFld Reg.harpSresRd 0 16) % 65536 < 64 := by
  unfold detects; decide +kernel

theorem foldMax_const (n : Nat) : (List.replicate n 3).foldl max 3 = 3 := by
  induction n with
  | zero => rfl
  | succ n ih => rw [List.replicate_succ]; exact ih

theorem bestCell_const (n : Nat) : bestCell (List.replicate (n + 1) 3) = (0, 3) := by
  have h : (List.replicate (n + 1) 3).foldl max 0 = 3 := by rw [List.replicate_succ]; exact foldMax_const n
  unfold bestCell
  simp only [h]
  rw [List.replicate_succ, List.findIdx_cons]; rfl

/-- A floor over cells of 3 is three times its count. -/
theorem noiseSum_const (q : Nat × Nat → Bool) (l : List (Nat × Nat)) (hl : ∀ x ∈ l, x.1 = 3) (k : Nat) :
    ∃ n, l.foldl (fun m x => if q x then m else (m.1 + x.1, m.2 + 1)) (3 * k, k) = (3 * n, n) := by
  induction l generalizing k with
  | nil => exact ⟨k, rfl⟩
  | cons x l ih =>
    simp only [List.foldl_cons]
    split
    · exact ih (fun y hy => hl y (List.mem_cons_of_mem _ hy)) k
    · have e : ((3 * k + x.1, k + 1) : Nat × Nat) = (3 * (k + 1), k + 1) := by rw [hl x List.mem_cons_self, Nat.mul_succ]
      rw [e]
      exact ih (fun y hy => hl y (List.mem_cons_of_mem _ hy)) (k + 1)

theorem noiseFloor_const (p c : Nat) (hc : sameBlock p false c 0 = false) :
    ∃ n, noiseFloor p false 0 0 (List.replicate (c + 1) 3) = (3 * (n + 1), n + 1) := by
  have hm : ∀ x ∈ (List.replicate c 3).zipIdx 0, x.1 = 3 := fun x hx => List.eq_of_mem_replicate (List.fst_mem_of_mem_zipIdx hx)
  obtain ⟨n, hn⟩ := noiseSum_const (fun x => sameBlock p false x.2 0) _ hm 0
  refine ⟨n, ?_⟩
  unfold noiseFloor
  rw [List.replicate_succ', List.zipIdx_append, List.foldl_append, hn, List.length_replicate]
  simp only [List.zipIdx_cons, List.zipIdx_nil, List.foldl_cons, List.foldl_nil, Nat.zero_add, hc, Bool.false_eq_true, if_false]
  rw [Nat.mul_succ]

theorem flat_undetected (p c : Nat) (hc : sameBlock p false c 0 = false) :
    let ss := List.replicate (c + 1) 3
    (noiseFloor p false 0 (0 + (bestCell ss).1) ss).2 ≠ 0 ∧ ¬ detects 64 p false 0 ss := by
  obtain ⟨n, hn⟩ := noiseFloor_const p c hc
  refine ⟨?_, ?_⟩
  · rw [bestCell_const c, Nat.add_zero, hn]; exact Nat.succ_ne_zero n
  · unfold detects
    rw [bestCell_const c]
    simp only [Nat.add_zero, hn]
    omega

/-- The same of a search of two passes at its first, of 8,192 cells. -/
theorem witness_HarpSearches_next : (request 1000 2).codes = 2001 ∧ 0 + 1 < (request 1000 2).passes ∧
    8191 + 1 = min 8192 ((request 1000 2).cells - 8192 * 0) ∧
    (let ss := List.replicate (8191 + 1) 3
     ss.length = 8191 + 1 ∧ (noiseFloor 2001 false 0 (0 + (bestCell ss).1) ss).2 ≠ 0 ∧ ¬ detects 64 2001 false 0 ss) :=
  ⟨by decide +kernel, by decide +kernel, by decide +kernel, List.length_replicate, flat_undetected 2001 8191 (by decide +kernel)⟩

/-- The verification of the search's peak, with the verdicts so far; its pass has run. -/
def verifying (votes : List Bool) : State :=
  (searching 4 1 0).onHarp fun v =>
    { v with mainOn := false, run := some ⟨request 4 1, 0, true, 1⟩,
             small := [{ who := .search 1, sig := 0, prn := 12, thr := 64, n := 1, peak := some ⟨7 * 2 ^ 32, 0⟩, centre := ⟨0, 0⟩, step := 500,
                         mu := (16, 1), votes := votes, tries := 0 }] }
def peak9 : List Nat := [1, 2, 3, 4, 500, 6, 7, 8, 9]

theorem witness_HarpSearches_verdicts : (verifying [true]).mayPass = true ∧ (verifying [true]).passDone = true ∧ peak9.length = 9 ∧
    (∃ w, (verifying [true]).harp.small = [w] ∧ w.who = .search (request 4 1).seq ∧ w.peak.isSome = true ∧ w.votes = [true] ∧
      (verifying [true]).hears w.sig = true ∧ w.thr * w.mu.1 ≤ (bestCell peak9).2 * 16 * w.mu.2) ∧
    (∃ x, (verifying [true]).harp.run = some x ∧ x.verify = true ∧ x.req.auto = true ∧ x.req.sig < 4 ∧ x.req.prn < 256) ∧
    (verifying [true]).idleChan = some 0 ∧
    (∃ w, (verifying []).harp.small = [w] ∧ w.votes = []) ∧ (verifying []).harp.wins = [] ∧ (verifying []).harp.mainOn = false := by
  refine ⟨by decide +kernel, by decide +kernel, rfl, ⟨_, rfl, ?_⟩, ⟨_, rfl, ?_⟩, by decide +kernel, ⟨_, rfl, rfl⟩, by decide +kernel, by decide +kernel⟩ <;>
    decide +kernel

/-- Channel 5 of signal `sig`, PRN 12, in a state with AUTO_REACQ, whose last dump ended at 998 ms and whose state began at
500 ms of samples, at 1,030 ms. -/
def channel5 (st sig : Nat) : State :=
  ((regs harpUp [(Reg.harpChStat 5, BitVec.ofNat 20 (st * 131072)), (Reg.harpChCfg 5, BitVec.ofNat 20 (0x03200 + sig * 262144))]).onHarp
    fun v => { v with si := 61380 * 1030 }).onChan 5 fun c => { c with pos := 61380 * 998 * 2 ^ 32, since := 61380 * 500 * 2 ^ 32 }

theorem witness_HarpSearches_reacq : (channel5 4 0).chState 5 = 4 ∧ (channel5 4 0).rBit (Reg.harpChCfg 5) 9 = true ∧
    (channel5 4 0).mayPass = true ∧ (channel5 4 0).mapValid = true ∧
    (channel5 4 0).msPassed ((channel5 4 0).chan 5).lastReq 1000 = true ∧ (channel5 4 0).reacqWaits 5 = false ∧
    harpUp.chState 5 ≠ 4 := by decide +kernel

/-- A dump whose prompt is nearly in phase. -/
def inPhase : Dump := { pilot := Vector.replicate 7 (100, 1), data := Vector.replicate 7 (100, -1) }

/-- Channel 5 changed. -/
def chan5 (s : State) (f : Chan → Chan) : State := s.onChan 5 f

theorem witness_HarpTracking : harpUp.chState 5 = 0 ∧
    (∀ st ∈ [1, 2, 3], (channel5 st 0).chState 5 = st ∧ (channel5 st 0).mayPass = true ∧ (channel5 st 0).dumpReady 5 = true ∧
      (channel5 st 0).pullDue 5 = false ∧ (channel5 st 0).lolDue 5 = false ∧ (channel5 st 0).pllDue 5 = false) ∧
    (channel5 1 0).hears 0 = true ∧ mag2 ((trackingOf inPhase 0).get 3) ≠ 0 ∧ (channel5 1 0).chSig 5 = 0 ∧
    ((channel5 1 0).onHarp fun v => { v with si := 61380 * 990 }).dumpReady 5 = false ∧
    ((chan5 ((channel5 1 0).setReg Reg.harpPullTmo 5) fun c => { c with pos := 61380 * 506 * 2 ^ 32 }).pullDue 5) = true ∧
    (let s := chan5 (channel5 1 0) fun c => { c with good := 19, corr := inPhase, plis := List.replicate 20 (1000, 1) }
     (s.chan 5).good = 19 ∧ fllSmall 0 (crossDot ((trackingOf (s.chan 5).corr 0).get 3) ((trackingOf inPhase 0).get 3)) = true ∧
       pliAtLeast ((9999, 10001) :: (s.chan 5).plis.take 19) (s.rFld (Reg.harpSigSpc2 0) 4 8) = true) ∧
    pliAtLeast [((-10000 : Int), 10000)] ((channel5 1 0).rFld (Reg.harpSigSpc2 0) 4 8) = false ∧
    (((channel5 2 0).chan 5).syncStep 0 12 true).synced 0 = false := by decide +kernel

theorem witness_HarpTracking_timers :
    msBetween ((channel5 1 0).chan 5).since ((channel5 1 0).chan 5).pos ((channel5 1 0).rFld Reg.harpPullTmo 0 16) = false ∧
    (let s := (channel5 1 0).setReg Reg.harpPullTmo 5
     msBetween (s.chan 5).since (s.chan 5).pos (s.rFld Reg.harpPullTmo 0 16) = true) ∧
    (let s := chan5 ((channel5 3 0).setReg Reg.harpPllTmo 5) fun c => { c with pliLow := some (61380 * 600 * 2 ^ 32) }
     (s.chan 5).pliLow = some (61380 * 600 * 2 ^ 32) ∧ msBetween (61380 * 600 * 2 ^ 32) (s.chan 5).pos (s.rFld Reg.harpPllTmo 0 16) = true ∧
       s.lolDue 5 = false) ∧
    (let s := chan5 ((channel5 3 0).setReg Reg.harpLolTmo 5) fun c => { c with cn0Low := some (61380 * 600 * 2 ^ 32) }
     (s.chan 5).cn0Low = some (61380 * 600 * 2 ^ 32) ∧ msBetween (61380 * 600 * 2 ^ 32) (s.chan 5).pos (s.rFld Reg.harpLolTmo 0 16) = true ∧
       s.lolDue 5 = true) ∧
    (channel5 4 0).msPassed ((channel5 4 0).chan 5).since ((channel5 4 0).rFld Reg.harpReacqTmo 0 12 * 1000) = false ∧
    (let s := (channel5 4 0).setReg Reg.harpReacqTmo 0
     s.msPassed (s.chan 5).since (s.rFld Reg.harpReacqTmo 0 12 * 1000) = true) ∧
    ((channel5 3 0).chan 5).pliLow = none ∧ ((channel5 3 0).chan 5).cn0Low = none ∧ (channel5 3 0).hostOpen (Reg.harpChCmd 5) = true ∧
    ((channel5 3 0).setReg (Reg.harpChCfg 5) 0x00286).partner 5 = some 6 ∧
    ((channel5 3 0).chan 5).mpMs < 1000 ∧ ((chan5 (channel5 3 0) fun c => { c with mpMs := 1000 }).chan 5).mpMs = 1000 := by decide +kernel

/-- An epoch of channel 5 that is due. -/
def epoch5 : Epoch :=
  { ne := 65536000000, valid := true, se := 77, res := 0, ants := [1, 2, 3, 4],
    chans := [{ h := 5, cfg := 0x03200, stat := 0x60000, mp0 := 0, mp1 := 0, chan := Chan.cold }] }

/-- Navigation decoding is on for every signal, with TOT_AUTO. -/
def navOn : State := regs (channel5 3 0) [(Reg.harpNavCtrl, 0xF8000), (Reg.harpEvt, 0)]

theorem witness_HarpRecords : up.harp.epoch = none ∧ up.harp.epochDue = false ∧
    (let s := (channel5 3 0).onHarp fun v => { v with epochDue := true }
     s.harp.epochDue = true ∧ s.harpOn = true ∧ s.harp.lastEpoch = none ∧ s.mapValid = true) ∧
    (let s := (channel5 3 0).onHarp fun v => { v with epochDue := true, lastEpoch := some 65536000000 }
     s.harp.lastEpoch = some 65536000000 ∧ (s.nut - 65536000000).toNat < 8000000 * 163840) ∧
    ((channel5 3 0).onHarp fun v => { v with epoch := some epoch5 }).harp.epoch = some epoch5 ∧
    epoch5.chans.length ≤ 96 ∧ epoch5.ants.length = 4 ∧ ((channel5 3 0).setReg Reg.harpEvt 0).rFld Reg.harpEvt 0 4 = 0 ∧ (channel5 2 0).chState 5 ≠ 3 ∧
    navOn.chState 5 = 3 ∧ navOn.mayPass = true ∧ navOn.rBit Reg.harpNavCtrl (16 + navOn.chSig 5) = true ∧ navOn.rBit Reg.harpNavCtrl 15 = true ∧
    (navOn.chan 5).totSrc ≠ 1 ∧ navOn.rFld Reg.harpEvt 4 4 = 0 ∧ (up.setReg Reg.harpNavCtrl 0).rBit Reg.harpNavCtrl 16 = false := by decide +kernel

/-- An LNAV word of zeros, whose parity checks, between two others; its first symbol is at 0. -/
def zeroWord : NavItem := ⟨0, 0, 0, 0, false, 0, 9⟩

/-- A channel that has found framing delivers the word; one that has not does not. -/
theorem witness_HarpRecords_items :
    (let c := { navOn.chan 5 with framing := .found, word := 4 }
     (c.takeNav 0 zeroWord (c.decodeNav 0 zeroWord)).2 = true) ∧
    ((navOn.chan 5).takeNav 0 zeroWord ((navOn.chan 5).decodeNav 0 zeroWord)).2 = false := by decide +kernel

/-! ### Linkan-20 -/

/-- Instruction fields: WID, DST, SRCA, SRCB, BSEL, MODE and IMM, with COND always true and SF set. -/
def ins (w dst a b sel mode : Nat) (imm : Word) : Fields :=
  { cond := 0, wid := BitVec.ofNat 3 w, sf := true, mode := BitVec.ofNat 4 mode, dst := BitVec.ofNat 6 dst, srca := BitVec.ofNat 6 a,
    srcb := BitVec.ofNat 6 b, bsel := BitVec.ofNat 2 sel, imm := imm }

/-- Course 1 runs; its context 35 is in RUN at 100, a system context of slot 4's frame. -/
def linkan : State :=
  let s := regs up [(Reg.crsRun 1, 0x10000), (Reg.crsRunaway 1, 1000), (Reg.crsBufCfg 1, 16), (Reg.prtStat 5, 0x80000)]
  (s.onCtx 35 fun c => { c with mode := .run, pc := 100, sys := true, slot := some 4, pw := 8192, g := Vector.ofFn fun i => BitVec.ofNat 20 (i.val * 3) }).onCourse 1
    fun v => { v with used := [4], sending := [], buf := v.buf.writes 8192 (List.replicate 64 0xA5), data := v.data.writes 72 [7, 8, 9] }

/-- Context 35 of `linkan`, changed. -/
def with35 (f : Ctx → Ctx) : State := linkan.onCtx 35 f

theorem witness_Branches : linkan.ready 35 (ins 1 8 16 24 0 0 0x80020) ∧ (linkan.ctx 35).stack.length < 8 ∧
    ((with35 fun c => { c with stack := [7] }).ctx 35).stack = [7] ∧ (with35 fun c => { c with stack := [7] }).ready 35 (ins 1 8 16 24 0 0 0) ∧
    linkan.canIssue 35 = true ∧ (linkan.ctx 35).issued < (linkan.reg (Reg.crsRunaway (courseOf 35))).toNat ∧ linkan.badFetch 35 = false ∧
    condTrue 1 (linkan.ctx 35).fl = false := by unfold State.ready; decide +kernel

theorem witness_ItemEnds : (with35 fun c => { c with slot := none }).ready 35 (ins 1 8 16 24 0 0 0) ∧
    ((with35 fun c => { c with slot := none }).ctx 35).slot = none ∧ (linkan.ctx 35).slot = some 4 := by
  unfold State.ready; decide +kernel

/-- Context 35 waits for completions of sends and for event 3, with a deadline. -/
def waiting35 (m : BitVec 14) (d : Option Nut) : State := with35 fun c => { c with mode := .wait, waiting := some ⟨m, d, 8⟩ }

/-- A late send's completion. -/
def lateDone : Done :=
  { at_ := 0, crypto := false, status := 3, slot := true, tag := 5, t := 77, tg := false, calw := true, perNom := false, gen := 9, late := 4 }

theorem witness_Waits_begin : linkan.ready 35 (ins 1 8 16 24 0 1 0x00408) ∧ fld 0x00408 14 6 = 0 ∧ (8 : BitVec 6).toNat % 8 = 0 ∧
    fld 0x00408 0 14 ≠ 0 ∧ chordOk 16 4 = true ∧ linkan.noEvent 35 0x408 ∧
    linkan.nut.toNat ≤ tickUp (65536000000 - 163839) ∧ tickUp (65536000000 - 163840) < linkan.nut.toNat ∧
    (regs linkan [(Reg.crsEvt 1 3, 5)]).pendOf 1 3 ≠ 0 ∧ (0x408 : BitVec 14).getLsbD 3 = true ∧
    (∀ i, i < 3 → (0x408 : BitVec 14).getLsbD i = false) := by unfold State.ready State.noEvent; decide +kernel

theorem witness_Waits_end : ((waiting35 0x2000 none).ctx 35).mode = .wait ∧ ((waiting35 0x2000 none).ctx 35).waiting = some ⟨0x2000, none, 8⟩ ∧
    (∀ e, e < 11 → (0x2000 : BitVec 14).getLsbD e = false) ∧ (0x2000 : BitVec 14).getLsbD 11 = false ∧
    (0x2000 : BitVec 14).getLsbD 12 = false ∧ (0x2000 : BitVec 14).getLsbD 13 = true ∧
    (((waiting35 0x2000 none).onCtx 35 fun c => { c with done := [lateDone] }).ctx 35).done = [lateDone] ∧
    (waiting35 0x2408 (some 6)).noEvent 35 0x2408 ∧ tickUp 65535836161 ≤ linkan.nut.toNat ∧
    linkan.nut.toNat < tickUp 65536000001 ∧ ((with35 fun c => { c with mode := .stall }).ctx 35).stall = .result := by
  unfold State.noEvent; decide +kernel

/-- A field for each form of operand B. -/
theorem witness_Arithmetic : ∀ f ∈ [ins 5 8 16 24 0 0 0, ins 5 8 16 24 1 0 0xFFFFF, ins 5 8 16 24 2 0 15, ins 3 8 16 24 3 0 0],
    linkan.ready 35 f ∧ 1 ≤ f.w ∧ f.w ≤ 5 ∧ chordOk f.dst f.w = true ∧ chordOk f.srca f.w = true := by
  unfold State.ready; decide +kernel

theorem witness_Arithmetic_operandB : linkan.operandB 35 (ins 5 8 16 24 0 0 0) 5 ((linkan.ctx 35).chord 24 5) ∧
    linkan.operandB 35 (ins 5 8 16 24 1 0 0xFFFFF) 5 (2 ^ 100 - 1) ∧
    linkan.operandB 35 (ins 3 8 16 24 3 0 0) 3 (7 + 8 * 2 ^ 20 + 9 * 2 ^ 40) := by
  refine ⟨And.intro (by decide +kernel) rfl, ?_, And.intro (by decide +kernel) ⟨[7, 8, 9], ?_⟩⟩
  · show 2 ^ 100 - 1 = _
    decide +kernel
  · decide +kernel

/-- The first 36 bits of the window of `linkan`, each byte of which is 0xA5. -/
theorem witness_fieldIs (n b : Nat) (hn : n ≤ 36) (hb : b < 2 ^ n)
    (h : ∀ j, j < n → b.testBit (n - 1 - j) = (0xA5 : Byte).getLsbD (7 - j % 8)) : linkan.fieldIs 35 0 n b := by
  have hr : ∀ i, i < 5 → (linkan.course (courseOf 35)).buf.read? (((linkan.ctx 35).pw.toNat + i) % 1048576) = some 0xA5 := by decide +kernel
  have hw : ∀ k, k ≤ 5 → linkan.loadWaits 35 8192 k = false ∧ linkan.badByte (courseOf 35) 8192 k = none := by decide +kernel
  have hp : (linkan.ctx 35).pw.toNat + 0 / 8 = 8192 := by decide +kernel
  unfold State.fieldIs
  simp only [hp, Nat.zero_add, Nat.zero_div, Nat.sub_zero]
  have hk : (n + 7) / 8 ≤ 5 := by omega
  refine ⟨by omega, (hw _ hk).1, (hw _ hk).2, hb, fun i hi => ?_, fun j y hj hy => ?_⟩
  · have := hr i (by omega)
    rw [show (linkan.ctx 35).pw.toNat = 8192 from hp] at this
    rw [this]; rfl
  · rw [hr (j / 8) (by omega)] at hy
    rw [h j hj, Option.some.inj hy]

theorem witness_Arithmetic_field : linkan.operandB 35 (ins 5 8 16 24 2 0 15) 5 0xA5A5 := by
  refine And.intro (by decide +kernel) ?_
  exact witness_fieldIs 16 0xA5A5 (by decide) (by decide) (by decide)

theorem witness_WordsAndStores : linkan.ready 35 (ins 5 8 16 24 3 4 9) ∧ chordOk 8 5 = true ∧ 4 % 8 < 5 ∧ chordOk 16 5 = true ∧
    (ins 5 8 16 24 3 4 9).sel = 3 := by unfold State.ready; decide +kernel

theorem witness_Floats : linkan.ready 35 (ins 3 8 16 24 0 0 0) ∧
    (ins 3 8 16 24 0 0 0).sel ≠ 1 ∧ chordOk 16 3 = true ∧ chordOk 8 3 = true ∧ linkan.ready 35 (ins 5 8 16 24 0 5 0) ∧
    chordOk 8 5 = true := by unfold State.ready; decide +kernel

theorem witness_FloatRounding : f60Val (f60Round true 3 2 (-1)) = .fin true (3 * 2 ^ 47) (-49) ∧ (3 * 2 ^ 47 : Nat) ≠ 0 ∧
    f60Val 0x3FF000000000000 = .fin false (2 ^ 48) (-48) := by decide +kernel

theorem witness_TimeInstructions : linkan.ready 35 (ins 4 8 16 24 0 0 0) ∧ linkan.ready 35 (ins 5 8 16 24 0 0 0) ∧
    linkan.ready 35 (ins 2 8 16 24 0 0 0) ∧ (linkan.replicas.get 1).fence = .service ∧ linkan.rBit (Reg.tunCtrl 0) 19 = true ∧
    (let s : State := { linkan with replicas := vset linkan.replicas 1 { linkan.replicas.get 1 with fence := .fenced } }
     s.ready 35 (ins 4 8 16 24 0 0 0) ∧ (s.replicas.get 1).fence ≠ .service) := by
  unfold State.ready; decide +kernel

theorem witness_ProgramCommits : linkan.ready 35 (ins 1 8 16 24 0 0 3) ∧ (16 : BitVec 6).toNat % 16 = 0 ∧ (linkan.ctx 35).sys = true ∧
    (linkan.replicas.get 1).fence = .service ∧ ((with35 fun c => { c with sys := false }).ctx 35).sys = false ∧
    (with35 fun c => { c with sys := false }).ready 35 (ins 1 8 16 24 0 0 3) ∧
    (let s : State := { linkan with replicas := vset linkan.replicas 1 { linkan.replicas.get 1 with fence := .fenced } }
     s.ready 35 (ins 1 8 16 24 0 0 3) ∧ (s.ctx 35).sys = true ∧ (s.replicas.get 1).fence ≠ .service) := by
  unfold State.ready; decide +kernel

/-- A TCMT of context 35 to tuning 3 that has crossed. -/
def crossed3 (c : Commit) : State :=
  { linkan with tunings := vset linkan.tunings 3 { linkan.tunings.get 3 with progs := [⟨1, 35, 0, 9, true, c⟩] } }
def full3 : Commit := { kind := 0, seq := false, parent := false, nut := 5, val := 7, rate := 9 }

theorem witness_ProgramCommits_tick : ((crossed3 full3).tunings.get 3).host = none ∧ ((crossed3 full3).tunings.get 3).progs = [⟨1, 35, 0, 9, true, full3⟩] ∧
    (crossed3 full3).isVoid 52 = false ∧ (crossed3 full3).tickTaken 3 = false ∧ ((crossed3 full3).ctx 35).item = 0 ∧
    (∀ j : TunId, j ≠ 3 → ((crossed3 full3).tunings.get j).host = none ∧ ((crossed3 full3).tunings.get j).progs = []) ∧
    (crossed3 full3).rBit Reg.brgLoopStat 16 = false ∧ commitBad (crossed3 full3) 3 full3 = false ∧
    commitBad (crossed3 full3) 3 { full3 with kind := 3 } = true ∧
    commitBad (crossed3 full3) 3 { full3 with kind := 2, val := 1000000000 * 2 ^ 22 } = true ∧
    (let s := regs (crossed3 full3) [(Reg.brgLoopStat, 0x10000), (Reg.tunStatus 3, 0x40000)]
     s.rBit Reg.brgLoopStat 16 = true ∧ s.isChild 3 = true ∧ s.tickTaken 3 = false) := by decide +kernel

theorem witness_ProgramArms : linkan.ready 35 (ins 1 8 16 24 0 0 7) ∧ (linkan.replicas.get 1).fence = .service ∧ bitOf 7 8 = false ∧
    linkan.rFld (Reg.plkStat 71) 17 2 = 0 ∧ (linkan.plucks.get 71).pend = none ∧ linkan.isVoid 52 = false ∧
    linkan.ready 35 (ins 1 8 16 24 0 0 0x103) ∧ bitOf 0x103 8 = true ∧ linkan.rBit (Reg.plkEdgeStat 3) 18 = false ∧
    linkan.rBit (Reg.plkEdgeStat 3) 10 = false ∧ (linkan.edges.get 3).pluck.pend = none ∧
    bitOf ((linkan.ctx 35).r 16) 19 = linkan.rBit (Reg.plkEdgeCtrl 3) 19 ∧
    (linkan.setBit (Reg.plkStat 71) 18 true).rBit (Reg.plkStat 71) 18 = true ∧
    (linkan.setBit (Reg.plkEdgeStat 3) 18 true).rBit (Reg.plkEdgeStat 3) 18 = true ∧
    (let s : State := { linkan with power := { linkan.power with xing := vset linkan.power.xing 52 { linkan.power.xing.get 52 with void := true } } }
     s.ready 35 (ins 1 8 16 24 0 0 7) ∧ s.isVoid 52 = true ∧ s.rFld (Reg.plkStat 71) 17 2 = 0) ∧
    fld 0x10000 16 4 = 1 ∧ linkan.rBit Reg.plkGstat 19 = false ∧
    (let s := linkan.setPluck 71 { Pluck.cold with pend := some ⟨true, false, { PluckCfg.zero with ctrl := 0x10000 }, some (35, 0, 9, true)⟩ }
     (s.plucks.get 71).pend = some ⟨true, false, { PluckCfg.zero with ctrl := 0x10000 }, some (35, 0, 9, true)⟩ ∧ (s.ctx 35).item = 0) := by
  unfold State.ready; decide +kernel

theorem witness_PacketWindow : linkan.ready 35 (ins 1 8 16 24 0 1 4) ∧ (linkan.ctx 35).slot = some (4 % 512) ∧
    linkan.rFld (Reg.crsBufCfg 1) 0 9 ≤ 511 ∧ linkan.ready 35 (ins 5 8 16 24 0 0 0x00063) ∧ (0x00063 : Word).toNat % 64 + 1 ≤ 20 * 5 ∧
    1 + 36 ≤ 16384 ∧ linkan.storeWaits 35 8192 5 = false ∧ 8192 / 2048 ∉ (linkan.course 1).sending ∧ 8192 + 2048 ≤ 1048576 ∧ linkan.ready 35 (ins 1 8 16 24 1 2 0x01000) ∧
    linkan.loadWaits 35 8192 2 = false ∧ linkan.badByte 1 8192 2 = none := by unfold State.ready; decide +kernel

/-- G(16) sends 100 bytes to port 5; G(8) is a target 1,000 ticks ahead. -/
def sender : State := with35 fun c => (c.wr 16 [BitVec.ofNat 20 (5 * 4096 + 100)]).wr 8 (toWords 4 (65536000000 + 163840000))

theorem witness_Sends : sender.ready 35 (ins 1 8 16 24 0 0 0xC0123) ∧ (ins 1 8 16 24 0 0 0xC0123).mode.toNat % 4 ≠ 3 ∧ (sender.ctx 35).sends < 4 ∧ (sender.ctx 35).slot = some 4 ∧
    4 ∉ (sender.course 1).sending ∧ ((sender.ownJobs 35).any fun j => meets j.writes (4 * 2048, 2048)) = false ∧
    ((sender.ctx 35).r 16).toNat / 4096 % 32 < 24 ∧ 100 + 4 ≤ sender.rFld (Reg.prtMaxlen 5) 0 12 ∧ sender.rBit (Reg.prtStat 5) 19 = true ∧
    ((sender.port 5).queues.get 1).length < 32 ∧ (sender.port 5).launch.length < 64 ∧
    (sender.nut.toNat : Int) ≤ launchTick 65699840000 ∧ launchTick 65536000000 < sender.nut.toNat ∧
    4 ∈ ((sender.onCourse 1 fun v => { v with sending := [4] }).course 1).sending ∧ ¬ 2045 ≤ 2044 ∧ up.rBit (Reg.prtStat 6) 19 = false := by
  unfold State.ready; decide +kernel

/-- A completed send of context 35 that waits for its course. -/
def sent35 : Sent := ⟨{ send4 with course := 1, x := some (35, 0), own := true }, doneOf send4 0 0 false⟩
def completing : State := linkan.onCourse 1 fun v => { v with sent := [sent35] }

theorem witness_FrameEnds : linkan.ready 35 (ins 1 8 16 24 0 0 0xFFFF3) ∧ (linkan.ctx 35).slot = some ((linkan.ctx 35).pw.toNat / 2048) ∧
    ((linkan.ctx 35).r 56).toNat % 4096 = 168 ∧ linkan.badByte 1 8192 168 = none ∧
    (completing.course 1).sent = [sent35] ∧ courseOf 35 = 1 ∧ (completing.ctx 35).item = 0 ∧ (completing.ctx 35).mode = .run ∧
    sent35.d.status ≠ 9 ∧ sent35.send.own = true ∧ (linkan.course 1).sent = [] := by unfold State.ready; decide +kernel

/-- A table of KW 1 with four buckets at 1024; the bucket of key 48 holds it in way 1. -/
def tableKey : List Word := [48]
def tableAt : Nat := 1024 + 64 * ((crc32c 0xFFFFFFFF (keyHashBytes tableKey)).toNat % 4)
def tabled : State :=
  { linkan with client := ((linkan.client.writes 16 [0x90000, 0x00010, 2, 100]).writes tableAt [0x80005, 7]).writes (tableAt + 16) [0x80021, 48] }

theorem witness_Tables : tabled.ready 35 (ins 1 8 16 24 0 0 1) ∧ (tabled.ctx 35).rd 16 1 = tableKey ∧
    (tabHead [0x90000, 0x00010, 2, 100]).bad = false ∧ (tabHead [0x90000, 0x00010, 2, 100]).kw = 1 ∧ (tabHead [0x90000, 0x00010, 2, 100]).base = 1024 ∧
    (tabHead [0x90000, 0x00010, 2, 100]).b = 2 ∧ tabled.client.read? (tableAt + 17) = some 48 ∧ tabled.badClient tableAt 64 = none ∧
    (List.range 4).map (fun i => tabled.client.read? (16 + i)) = [some 0x90000, some 0x00010, some 2, some 100] ∧
    (tabHead [0x10000, 0x00010, 2, 100]).bad = true ∧
    (let s := regs tabled [(Reg.crsRun 2, 0x10000), (Reg.crsCompat 2, 2)]
     s.crsState 2 = CS.run ∧ s.rFld (Reg.crsCompat 1) 0 8 + 1 < s.rFld (Reg.crsCompat 2) 0 8) ∧
    (ins 1 8 16 24 0 0 1).sel = 0 ∧ holdsKey ([0, 0, 0, 0, 0, 0, 0, 0, 0, 0, 0, 0, 0, 0, 0, 0, 0x80021, 48] ++ List.replicate 46 0) tableKey 1 := by
  unfold State.ready holdsKey; decide +kernel

theorem witness_SystemInstructions : linkan.ready 35 (ins 4 8 16 24 0 0 66) ∧ cntValid 66 = true ∧ (linkan.ctx 35).sys = true ∧
    (linkan.replicas.get 1).fence = .service ∧ linkan.ready 35 (ins 4 8 16 24 0 0 78) ∧ linkan.ready 35 (ins 1 8 16 24 0 0 15) ∧
    bitOf ((with35 fun c => c.wr 26 [0x20000]).ctx 35 |>.r 26) 17 = true ∧ bitOf ((linkan.ctx 35).r 26) 17 = false ∧
    linkan.rsSrc 15 ≠ 4 ∧ (regs linkan [(Reg.brgRsCfg 15, 0x80020)]).rsSrc 15 = 4 ∧
    (regs linkan [(Reg.brgRsCfg 15, 0x80020)]).rBit (Reg.brgRsCfg 15) 5 = true ∧ linkan.rBit (Reg.brgRsCfg 15) 5 = false ∧
    linkan.nut.toNat < ((linkan.ctx 35).chord 16 4) ∧ ((with35 fun c => { c with sys := false }).ctx 35).sys = false := by
  unfold State.ready; decide +kernel

/-- A CMAC of 20 bytes with an 8-byte tag at 100, on lane 4 of course 1. -/
def cmac20 (verify : Bool) : Job :=
  { x := 35, item := 0, op := 2, blk := [1, 2, 3, 4, 0, 20, 100, 8], mode := if verify then 1 else 0, imm := 0x123, pw := 8192 }
def macKey : SlotKey := ⟨1, List.replicate 16 0x2B⟩
def laneRuns (j : Job) (k : Option SlotKey) : State := linkan.onCourse 1 fun v => { v with lanes := vset v.lanes 4 ⟨some j, k⟩ }

theorem witness_Crypto : linkan.ready 35 (ins 1 8 16 24 0 0 0) ∧ (16 : BitVec 6).toNat % 8 = 0 ∧ (linkan.ctx 35).jobs < 2 ∧ linkan.powered 9 = true ∧
    (regs linkan [(0x2084, 0xDFF)]).powered 9 = false ∧ (((linkan.onCourse 1 fun v => { v with jobs := [cmac20 false] }).course 1).jobs = [cmac20 false]) ∧
    ((linkan.course 1).lanes.get 7).job = none ∧ linkan.rBit (Reg.crsLane 1) 15 = false ∧
    ((laneRuns (cmac20 false) none).course 1).lanes.get 4 = ⟨some (cmac20 false), none⟩ ∧ ((laneRuns (cmac20 false) none).ctx 35).item = 0 ∧
    2048 < 2047 + 2 ∧ 1 ≤ (8 : Word).toNat % 64 ∧ (8 : Word).toNat % 64 ≤ 16 ∧ 100 + 8 ≤ 2048 ∧
    ((laneRuns (cmac20 true) (some macKey)).course 1).lanes.get 4 = ⟨some (cmac20 true), some macKey⟩ ∧
    (List.range 20).map (fun a => (linkan.course 1).buf.read? (8192 + a)) = List.replicate 20 (some 0xA5) := by
  unfold State.ready; decide +kernel

theorem witness_ContextFaults : linkan.ready 35 (ins 2 8 16 24 0 0 0) ∧ linkan.ready 35 (ins 1 8 16 24 0 3 0) ∧ (linkan.ready 35 (ins 1 8 16 24 1 0 1) ∧ (ins 1 8 16 24 1 0 1).sel = 1 ∧ (ins 1 8 16 24 2 0 1).sel = 2) ∧ chordOk 9 2 = false ∧ chordOk 20 5 = false ∧ chordOk 25 3 = false ∧
    (with35 fun c => { c with sys := false }).ready 35 (ins 1 8 16 24 0 0 0) ∧ fld ((linkan.ctx 35).r 16) 16 4 ≠ 1 ∧
    5 % 512 < linkan.rFld (Reg.crsBufCfg 1) 0 9 ∧ (linkan.ctx 35).slot ≠ some 5 ∧ 16384 < 16383 + 1 + 1 ∧
    8 ≤ ((with35 fun c => { c with stack := List.replicate 8 0 }).ctx 35).stack.length ∧ (linkan.ctx 35).stack = [] ∧
    (let s : State := { linkan with bad := [(.dataSram, 1, 72)] }
     s.ready 35 (ins 1 8 16 24 3 0 0) ∧ (s.badData 1 ((linkan.ctx 35).r 24).toNat 1).isSome = true) ∧
    (let s : State := { linkan with bad := [(.programTable, 1, 302)] }
     s.badFetch 35 = true ∧ s.canIssue 35 = true) ∧
    ((with35 fun c => { c with issued := 1000 }).ctx 35).issued = ((with35 id).reg (Reg.crsRunaway 1)).toNat := by
  unfold State.ready; decide +kernel

theorem witness_UnitFaults : linkan.rBit (Reg.strStat 4) 19 = false ∧ linkan.powered 2 = true ∧ strOf 35 = 4 ∧ (linkan.ctx 35).mode = .run ∧
    (let s : State := { regs linkan [(Reg.strWdog 4, 0x100)] with nut := 0x100 * 163840 }
     reached s.nut (s.quiet.get 4 + BitVec.ofNat 80 (s.rFld (Reg.strWdog 4) 0 17 * 163840)) = true) ∧
    (∀ x, strOf x = 5 → (linkan.ctx x).mode ≠ .run) ∧ linkan.hostOpen (Reg.strCtl 4) = true ∧
    linkan.hostOpen (Reg.strCtxCmd 4 3) = true ∧ ((with35 fun c => { c with mode := .halted }).ctx 35).mode = .halted ∧
    linkan.powered 9 = true ∧ linkan.rBit (Reg.crsLane 1) 15 = false ∧ linkan.hostOpen (Reg.crsLane 1) = true := by decide +kernel

/-- Two errors wait for their records at the end of a tick, with room in the ring and without. -/
def errA : ErrRec := { code := 12, action := 2, unit := 3, index := 0, d1 := 1, d2 := 2 }
def errsDue (l : List ErrRec) (wr : Nat) : State := { regs up [(Reg.irqErrWr, BitVec.ofNat 20 wr)] with irq := { up.irq with due := l } }

theorem witness_UnitFaults_records : (errsDue [errA] 0).irq.due = [errA] ∧ errA.code < 64 ∧ errA.action < 4 ∧ errA.unit < 16 ∧
    ((errsDue [errA] 0).rFld Reg.irqErrWr 0 16 + 65536 - (errsDue [errA] 0).rFld Reg.irqErrRd 0 16) % 65536 < 32 ∧
    ¬ ((errsDue [errA] 32).rFld Reg.irqErrWr 0 16 + 65536 - (errsDue [errA] 32).rFld Reg.irqErrRd 0 16) % 65536 < 32 ∧
    (errsDue [errA, { errA with code := 8 }] 0).irq.due = [errA, { errA with code := 8 }] := by decide +kernel

/-- A write of PMC_STR_SEL7 of string 15 crosses since the tick at `n`, with a newer one behind it or none. -/
def selecting (n : Nut) (next : Option Word) : State :=
  { up with cntReq := [(Reg.pmcStrSel 15 7, { cnts := [Cnt.str 15 9], old := 0, val := 0x38000, at_ := some n, next := next })] }

theorem witness_CountersAndChecks_clears : (∀ a ∈ [Reg.pmcStrSel 15 7, Reg.pmcCrsSel 3 3, Reg.pmcStrCtl 15], Sparse.find up.cntReq a = none) ∧
    up.isVoid 49 = false ∧
    (∃ q, Sparse.find (selecting 0 none).cntReq (Reg.pmcStrSel 15 7) = some q ∧ q.at_ ≠ none ∧ q.next = none) ∧
    (0 : Nut) ≠ (selecting 0 none).nut ∧ (selecting 65536000000 (some 0x40000)).nut = 65536000000 := by
  refine ⟨by decide +kernel, by decide +kernel, ⟨_, rfl, ?_⟩, by decide +kernel, by decide +kernel⟩; decide +kernel

/-- Replica 25 differs, was fenced, or was reloaded, on a check tick. -/
def checking (d : BitVec 80) (f : Fence) : State :=
  { up with replicas := vset up.replicas 25 { dev := d, fence := f, fails := [] } }

theorem witness_CountersAndChecks : up.hostOpen (Reg.pmcStrSel 15 7) = true ∧ up.hostOpen (Reg.pmcCrsSel 3 3) = true ∧ fld 0x7FFFF 15 5 = 15 ∧
    fld 0x80000 15 5 = 16 ∧ fld 0x68000 15 5 = 13 ∧ fld 0x70000 15 5 = 14 ∧ up.hostOpen (Reg.pmcStrCtl 15) = true ∧ up.powered 2 = true ∧
    reached (secNut 2) (up.speedAt.get 1 + BitVec.ofNat 80 (65536000 * 2 ^ up.rFld (Reg.crsSpeedCfg 1) 16 4)) = true ∧
    up.hostOpen (Reg.crsSpeedCfg 1) = true ∧ up.nut.toNat % 65536000 = 0 ∧ up.rBit Reg.irqFault 15 = false ∧
    (∀ j, j ≠ (25 : ReplicaId) → (checking 1 .service).replicas.get j = Replica.cold) ∧
    checkOf (up.nut + 1) ≠ checkOf up.nut ∧ ((checking 7 .fenced).replicas.get 25).fence = .fenced ∧
    ((checking 0 .reloaded).replicas.get 25).fence = .reloaded ∧
    (let s : State := { up with replicas := up.replicas.map fun r => { r with dev := 1 } }
     15 ≤ s.failing.length) := by decide +kernel

/-! ### The host's accesses and the loader -/

theorem witness_SlotAccesses : bar0Slot 0x14 = true ∧ up.hostUp = true ∧ State.reset.hostUp = false ∧
    (∀ a ∈ plainRegs, (regs up [(Reg.devMap, 0x80000)]).hostOpen a = true ∧ (regs up [(Reg.devMap, 0x80000)]).hostAddr a = a ∧ bar0Slot a = true) ∧ up.holding = false ∧
    regAt 0x7FFFC = none ∧ bar0Slot 0x7FFFC = true ∧ up.hostOpen (up.hostAddr 0x7FFFC) = true ∧
    (let a := Reg.plkTgt 7 + 16
     ∃ r, regAt a = some (r, 4) ∧ r.words = 5 ∧ r.rw ≠ 0 ∧ up.hostOpen a = true ∧ up.wordsShut (a - 16) = none) ∧
    (∃ r, regAt Reg.brgSteer = some (r, 0) ∧ 2 ≤ r.words) ∧ up.hostReads Reg.brgSteer = true ∧ captureOf Reg.brgSteer = none ∧
    Reg.brgSteer ≠ Reg.harpSi ∧
    (let s : State := { up.setBit Reg.cfgStat 19 true with nut := 5 }
     s.hostUp = true ∧ s.coldBooting = true ∧ s.hostOpen Reg.devMap = false) := by
  refine ⟨by decide +kernel, by decide +kernel, by decide +kernel, by decide +kernel, by decide +kernel, by decide +kernel, by decide +kernel,
    by decide +kernel, ⟨_, rfl, by decide +kernel, by decide +kernel, by decide +kernel, by decide +kernel⟩, ⟨_, rfl, by decide +kernel⟩,
    by decide +kernel, by decide +kernel, by decide +kernel, by decide +kernel⟩

theorem witness_MemoryWindows : up.hostUp = true ∧ up.coldBooting = false ∧ up.rBit Reg.pwrStat 18 = false ∧
    (∀ c : CourseId, up.powered (1 + c.val) = true) ∧ up.crsState 3 ≠ CS.run ∧ up.crsState 3 ≠ CS.draining ∧
    (up.setCrsState 3 CS.draining).crsState 3 = CS.draining ∧
    (let s := up.setBit Reg.pwrStat 4 false
     s.powered 4 = false ∧ s.hostUp = true ∧ s.rBit Reg.pwrStat 18 = false) := by decide +kernel

/-- An image of one DATA section of three words for course 1, from word 5 on, with COMPAT 5, and its check word. -/
def imageOf (words : List Word) : List Byte := words.flatMap fun w => leBytes 4 w.toNat
def imageBody : List Word := [0xCA311, 0x07A1E, 0x01005, 0x12345, 0x00002, 27, 0, 1, 0xFFF, 0, 0, 0, 0, 0, 0, 0, 0x31000, 5, 0, 3, 0, 0, 1, 2, 3]
def dataImage : List Byte := imageOf (imageBody ++ [888027, 2890])

/-- The CRC of the image's body, in four parts. -/
theorem imageBody_crc : crc32c 0xFFFFFFFF (imageOf imageBody) = 3031272667 := by
  have h1 : ((imageOf imageBody).take 25).foldl (crcByte 0x82F63B78) 0xFFFFFFFF = 1489464727 := by decide +kernel
  have h2 : (((imageOf imageBody).drop 25).take 25).foldl (crcByte 0x82F63B78) 1489464727 = 4180633358 := by decide +kernel
  have h3 : (((imageOf imageBody).drop 50).take 25).foldl (crcByte 0x82F63B78) 4180633358 = 2547352382 := by decide +kernel
  have h4 : ((imageOf imageBody).drop 75).foldl (crcByte 0x82F63B78) 2547352382 = 1263694628 := by decide +kernel
  have e : imageOf imageBody = (imageOf imageBody).take 25 ++ (((imageOf imageBody).drop 25).take 25 ++
      (((imageOf imageBody).drop 50).take 25 ++ (imageOf imageBody).drop 75)) := by decide +kernel
  unfold crc32c crcBytes
  rw [e, List.foldl_append, List.foldl_append, List.foldl_append, h1, h2, h3, h4]
  decide

theorem dataImage_accepted : imageReason dataImage = 0 := by
  have h : imageCrc dataImage = 3031272667 := by
    have e : dataImage.take (4 * ((imageHeader (imageWords dataImage)).length - 2)) = imageOf imageBody := by decide +kernel
    unfold imageCrc
    rw [e, imageBody_crc]; rfl
  have h1 : headerReason dataImage = 0 := by decide +kernel
  have h2 : sectionsOk dataImage = true := by decide +kernel
  have h3 : checkWord (imageWords dataImage) = 3031272667 := by decide +kernel
  unfold imageReason
  simp only [h1, h2, h, h3]
  decide

theorem witness_Loader : up.hostOpen Reg.cfgLoad = true ∧ bitOf 0x90000 19 = true ∧ up.rBit Reg.cfgStat 19 = false ∧ up.rBit Reg.cfgLoad 12 = false ∧
    up.rBit Reg.cfgSpiCmd 18 = false ∧ (up.setCrsState 1 CS.drained).crsState 1 = CS.drained ∧ (up.setCrsState 1 CS.run).crsState 1 ≠ CS.rom ∧
    (up.setBit Reg.cfgSpiCmd 18 true).rBit Reg.cfgSpiCmd 18 = true ∧ imageReason [] ≠ 0 ∧
    (imageHeader (imageWords dataImage)).compat = 5 ∧ up.highLevel + 1 < 5 ∧ acceptedSections dataImage = [⟨3, 1, 5, 3, [1, 2, 3]⟩] ∧
    up.powered 2 = true ∧ up.hostOpen Reg.cfgSpiCmd = true ∧
    ({ up with load := some ⟨1, false, dataImage⟩, spi := some (false, 0) } : State).load = some ⟨1, false, dataImage⟩ := by decide +kernel

/-! ### The spec's own examples -/

/-- The T0 stamp of spec/02, "One stamp read in T0". -/
def exampleAnchor : Anchor :=
  { nut := 235929600000000000, val := ftMake 1767225637 600000000 0, rate := 137000, off := 0, cnut := 0, crate := 0 }

theorem test_t0_reading :
    readAnchor exampleAnchor 236027904000030000 = ftMake 1767225639 100000002 2150687 ∧
    toWords 5 (readAnchor exampleAnchor 236027904000030000).toNat = [0x0D11F, 0x7840A, 0x2717D, 0x955B9, 0x00006] ∧
    nutOfReading exampleAnchor (ftMake 1767225639 100000002 2150687) = 236027904000030000 := by decide +kernel

/-- R62, R63: that stamp as an NTP timestamp and in PTP fields. -/
theorem test_ntp_ptp : ntpOf (ftMake 1767225602 100000002 2150687) = (3976214402, 0x199999A4, 0) ∧
    ptpOf (ftMake 1767225639 100000002 2150687) = (1767225639, 100000002, 33604) := by decide +kernel

/-- R212: the sentence of the inserted second of 2026-06-30. -/
theorem test_zda_leap : zdaRecord false 1782863999 true =
    [0x24, 0x47, 0x50, 0x5A, 0x44, 0x41, 0x2C, 0x32, 0x33, 0x35, 0x39, 0x36, 0x30, 0x2E, 0x30, 0x30, 0x2C, 0x33, 0x30, 0x2C, 0x30, 0x36, 0x2C,
     0x32, 0x30, 0x32, 0x36, 0x2C, 0x30, 0x30, 0x2C, 0x30, 0x30, 0x2A, 0x36, 0x45, 0x0D, 0x0A] := by decide +kernel

/-- A start of SEQ 1 at `q` beside a stop of SEQ 2 at 30,000,000,000. -/
def pairAt (q : Nut) : Nut × Word := ivlEntry ⟨30000000000, 2, 0, false⟩ (some ⟨q, 1, 0, false⟩)

/-- R119, R120: the interval entries of spec/05's table. -/
theorem test_interval_entries :
    (BitVec.ofNat 40 (pairAt (30000000000 - 500000)).1.toNat).toInt = 500000 ∧
    (BitVec.ofNat 40 (pairAt (30000000000 + 78643)).1.toNat).toInt = -78643 ∧ bitOf (pairAt (30000000000 + 78643)).2 17 = true ∧
    (BitVec.ofNat 40 (pairAt (30000000000 + 400)).1.toNat).toInt = 0 ∧ bitOf (pairAt (30000000000 + 400)).2 18 = true ∧
    bitOf (pairAt (30000000000 + 400)).2 17 = false ∧ bitOf (ivlEntry ⟨30000000000, 2, 0, false⟩ none).2 16 = true := by decide +kernel

/-- What a vote and the selection at the end of its tick leave of slot r's faults. -/
def votedFaults (l : List (SlotId × Int × Nat)) (r : SlotId) : Option (Nat × Nat) :=
  match execVoteTick ((voting l).brg fun b => { b with tracked := true }) with
  | .next t => some (t.bridgeEndTick.rFld (Reg.brgRsStat r) 7 9, t.bridgeEndTick.selState)
  | _ => none

/-- R178, R179: the votes of spec/07's example, of two slots far apart, of two nearer, and with a third beside one of them. -/
theorem test_votes :
    votedFaults [(0, 41000, 5), (3, -62000, 4)] 0 = some (2 ^ (RF.suspect - 7), BS.holdover) ∧
    votedFaults [(0, 41000, 5), (3, -19000, 4)] 0 = some (0, BS.tracking) ∧
    votedFaults [(0, 41000, 5), (3, -62000, 4), (2, 40500, 4)] 3 = some (2 ^ (RF.suspect - 7) + 2 ^ (RF.outvoted - 7), BS.tracking) ∧
    votedFaults [(0, 41000, 5), (3, -62000, 4), (2, 40500, 4)] 2 = some (0, BS.tracking) := by decide +kernel

/-- R304, R347: ADD of two 2-word chords carries out of 40 bits, and a word beyond its destination stays. -/
theorem test_add_wraps :
    (match execAdd 35 (ins 2 8 16 24 0 0 0) (with35 fun c => (c.wr 16 [0xFFFFF, 0xFFFFF]).wr 24 [2, 0]) with
     | .next t => some ((t.ctx 35).rd 8 3, (t.ctx 35).fl.c, (t.ctx 35).fl.z, (t.ctx 35).pc)
     | _ => none) = some ([1, 0, 30], true, false, 101) := by decide +kernel

/-- R349: 1 + 2⁻⁴⁹ is a tie, which goes to the even 1; 1 + 3 × 2⁻⁴⁹ goes up to 1 + 2 × 2⁻⁴⁸. -/
theorem test_float_ties : f60Round false (2 ^ 49 + 1) (2 ^ 49) 0 = 0x3FF000000000000 ∧
    f60Round false (2 ^ 49 + 3) (2 ^ 49) 0 = 0x3FF000000000002 := by decide +kernel

end Sys2Proof.Tests
end

section
/-! PROOFS. What an issued instruction does to its context: the registers it writes, the counters and marks of an issue, and the
registers that a context fault writes. -/

namespace Sys2Proof.Machine

/-! ### Folds and register frames -/

/-- What every step of a fold over indices keeps, the fold keeps. -/
theorem foldFin_keeps {σ : Type} {P : σ → Prop} (n : Nat) (f : Fin n → σ → σ) (s : σ) (h0 : P s)
    (hstep : ∀ i u, P u → P (f i u)) : P (foldFin n f s) := by
  have keeps : ∀ (l : List (Fin n)) u, P u → P (l.foldl (fun t i => f i t) u) := by
    intro l
    induction l with
    | nil => exact fun u h => h
    | cons i l ih => exact fun u h => ih _ (hstep i u h)
  exact keeps _ _ h0

theorem State.regsBut_refl (s : State) (l : List Nat) : s.regsBut s l := fun _ _ => rfl

theorem State.regsBut_of_regs {s t : State} (l : List Nat) (h : t.regs = s.regs) : s.regsBut t l :=
  fun a _ => State.reg_congr h a

theorem State.regsBut_trans {s t u : State} {l : List Nat} (h : s.regsBut t l) (h' : t.regsBut u l) : s.regsBut u l :=
  fun a ha => (h' a ha).trans (h a ha)

theorem State.regsBut_setReg {s t : State} {l : List Nat} (h : s.regsBut t l) {a : Nat} (ha : a ∈ l) (v : Word) :
    s.regsBut (t.setReg a v) l := fun b hb => by
  have hne : b ≠ a := by rintro rfl; exact hb ha
  rw [State.reg_setReg_ne _ _ hne, h b hb]

/-- A multi-word write changes its words alone. -/
theorem State.regsBut_setRegN (s : State) (a k v : Nat) : s.regsBut (s.setRegN a k v) (wordsAt a k) := by
  induction k generalizing s a v with
  | zero => exact s.regsBut_refl _
  | succ k ih =>
    intro b hb
    have hwords : wordsAt a (k + 1) = a :: wordsAt (a + 4) k := by
      simp only [wordsAt, List.range_succ_eq_map, List.map_cons, List.map_map]
      refine congrArg₂ _ rfl (List.map_congr_left fun i _ => ?_)
      simp only [Function.comp, Nat.succ_eq_add_one]
      omega
    obtain ⟨hne, hout⟩ := not_or.mp fun h => hb (hwords ▸ List.mem_cons.mpr h)
    rw [State.setRegN, ih _ _ _ b hout, State.reg_setReg_ne _ _ hne]

/-- Two states that agree on a multi-word register's words agree on it. -/
theorem State.regN_congr_words {s t : State} {a k : Nat} (h : ∀ i, i < k → s.reg (a + 4 * i) = t.reg (a + 4 * i)) :
    s.regN a k = t.regN a k := by
  induction k generalizing a with
  | zero => rfl
  | succ k ih =>
    have hrest : s.regN (a + 4) k = t.regN (a + 4) k := ih fun i hi => by
      have := h (i + 1) (by omega)
      rwa [show a + 4 * (i + 1) = a + 4 + 4 * i by omega] at this
    have hword : s.reg a = t.reg a := h 0 (by omega)
    rw [State.regN, State.regN, hrest, hword]

/-- An update that leaves the register words leaves every multi-word register. -/
theorem State.regN_congr {s t : State} (h : s.regs = t.regs) (a k : Nat) : s.regN a k = t.regN a k :=
  State.regN_congr_words fun _ _ => State.reg_congr h _

theorem State.ctx_congr {s t : State} (h : s.ctxs = t.ctxs) (x : CtxId) : s.ctx x = t.ctx x := by
  unfold State.ctx
  rw [h]

/-! ### A context's registers -/

/-- Registers written change the register file alone. -/
theorem Ctx.wr_frame (c : Ctx) (i : Nat) (ws : List Word) : c.wr i ws = { c with g := (c.wr i ws).g } := by
  induction ws generalizing c i with
  | nil => rfl
  | cons w ws ih => rw [Ctx.wr, ih]

@[simp] theorem Ctx.wr_pc (c : Ctx) (i : Nat) (ws : List Word) : (c.wr i ws).pc = c.pc := by rw [Ctx.wr_frame]
@[simp] theorem Ctx.wr_fl (c : Ctx) (i : Nat) (ws : List Word) : (c.wr i ws).fl = c.fl := by rw [Ctx.wr_frame]

/-- A context that has issued one more instruction (R330). -/
def Ctx.noted (c : Ctx) : Ctx := { c with issued := c.issued + 1 }

theorem Ctx.noted_wr (c : Ctx) (i : Nat) (ws : List Word) : c.noted.wr i ws = (c.wr i ws).noted := by
  induction ws generalizing c i with
  | nil => rfl
  | cons w ws ih => exact ih { c with g := vset c.g (Fin.ofNat 64 i) w } (i + 1)

/-- One register written reads as written, the others as before. -/
theorem Ctx.r_wr_one (c : Ctx) (i j : Nat) (w : Word) (hi : i < 64) (hj : j < 64) :
    (c.wr i [w]).r j = if j = i then w else c.r j := by
  have h : Fin.ofNat 64 j = Fin.ofNat 64 i ↔ j = i := by simp [Fin.ext_iff, Nat.mod_eq_of_lt hi, Nat.mod_eq_of_lt hj]
  simp only [Ctx.wr, Ctx.r, vset_get, h]

/-- Words below 2²⁰ make a value below 2^(20·k). -/
theorem ofWords_lt (ws : List Word) : ofWords ws < 2 ^ (20 * ws.length) := by
  induction ws with
  | nil => simp [ofWords]
  | cons w ws ih =>
    have hw := w.isLt
    rw [ofWords, List.length_cons, Nat.mul_succ, Nat.pow_add]
    omega

theorem Ctx.chord_lt (c : Ctx) (i k : Nat) : c.chord i k < 2 ^ (20 * k) := by
  simpa [Ctx.chord, Ctx.rd] using ofWords_lt (c.rd i k)

/-- The later of two contexts put in one place stands. -/
theorem State.setCtx_setCtx (s : State) (x : CtxId) (c d : Ctx) : (s.setCtx x c).setCtx x d = s.setCtx x d := by
  simp [State.setCtx, vset, Vector.set_set]

/-- Flags replaced in a context just put. -/
theorem State.setFlags_setCtx (s : State) (x : CtxId) (f : Fields) (c : Ctx) (g : Flags → Flags) :
    (s.setCtx x c).setFlags x f g = s.setCtx x { c with fl := if f.sf then g c.fl else c.fl } := by
  unfold State.setFlags
  split
  · rw [State.onCtx_eq, State.setCtx_setCtx, State.ctx_setCtx, if_pos rfl]
  · rfl

/-! ### Counted events and the note of an issue -/

/-- From `s` to `t` the performance counters and the marks of the strings' last issues alone change. -/
def State.marked (s t : State) : Prop :=
  t = { s with counters := t.counters, quiet := t.quiet, lastPc := t.lastPc, lastIss := t.lastIss }

theorem State.marked_refl (s : State) : s.marked s := rfl

theorem State.marked_trans {s t u : State} (h : s.marked t) (h' : t.marked u) : s.marked u := by
  unfold State.marked at h h' ⊢
  rw [h', h]

theorem State.marked_regs {s t : State} (h : s.marked t) : t.regs = s.regs := by rw [h]
theorem State.marked_ctx {s t : State} (h : s.marked t) (x : CtxId) : t.ctx x = s.ctx x := by rw [h]; rfl
theorem State.marked_slots {s t : State} (h : s.marked t) : t.slots = s.slots := by rw [h]
theorem State.marked_bridge {s t : State} (h : s.marked t) : t.bridge = s.bridge := by rw [h]

theorem State.marked_count (s : State) (n k : Nat) : s.marked (s.count n k) := by
  unfold State.count State.setCnt
  split <;> rfl

theorem State.marked_strEvent (s : State) (st : StrId) (e n : Nat) : s.marked (s.strEvent st e n) := by
  refine foldFin_keeps (P := s.marked) _ _ _ s.marked_refl fun k u h => ?_
  split
  · exact State.marked_trans h (State.marked_count _ _ _)
  · exact h

theorem State.marked_crsEvent (s : State) (c : CourseId) (e : Nat) (q : Option Nat) (n : Nat) :
    s.marked (s.crsEvent c e q n) := by
  refine foldFin_keeps (P := s.marked) _ _ _ s.marked_refl fun k u h => ?_
  extract_lets w mine
  split
  · exact State.marked_trans h (State.marked_count _ _ _)
  · exact h

/-- The marks of the last issue of context x's string, at PC `pc` (R301, R331). -/
def State.markIssue (s : State) (x : CtxId) (pc : BitVec 15) : State :=
  { s with quiet := vset s.quiet (strOf x) s.nut, lastPc := vset s.lastPc (strOf x) pc,
           lastIss := vset s.lastIss (strOf x) (x.val % 8) }

theorem State.marked_markIssue (s : State) (x : CtxId) (pc : BitVec 15) : s.marked (s.markIssue x pc) := rfl

/-- The note of an issue changes the counters, the marks, and the context's count of instructions. -/
theorem State.noteIssue_eq (s : State) (x : CtxId) (n : Nat) :
    ∃ u, s.marked u ∧ s.noteIssue x n = u.setCtx x (s.ctx x).noted := by
  have key : ∀ v, s.marked v → s.marked (v.markIssue x (s.ctx x).pc) ∧
      (v.markIssue x (s.ctx x).pc).onCtx x Ctx.noted = (v.markIssue x (s.ctx x).pc).setCtx x (s.ctx x).noted := fun v hv => by
    have h := State.marked_trans hv (v.marked_markIssue x (s.ctx x).pc)
    exact ⟨h, by rw [State.onCtx_eq, State.marked_ctx h]⟩
  have h1 := s.marked_strEvent (strOf x) 1 n
  refine ⟨_, key (if (s.ctx x).sys then (s.strEvent (strOf x) 1 n).strEvent (strOf x) 2 n else s.strEvent (strOf x) 1 n) ?_⟩
  split
  · exact State.marked_trans h1 (State.marked_strEvent _ _ _ _)
  · exact h1

/-- The note of an issue changes the contexts, the counters and the marks. -/
theorem State.noteIssue_frame (s : State) (x : CtxId) (n : Nat) :
    s.noteIssue x n = { s with ctxs := (s.noteIssue x n).ctxs, counters := (s.noteIssue x n).counters, quiet := (s.noteIssue x n).quiet,
                               lastPc := (s.noteIssue x n).lastPc, lastIss := (s.noteIssue x n).lastIss } := by
  obtain ⟨u, hu, he⟩ := s.noteIssue_eq x n
  rw [he]
  unfold State.marked at hu
  rw [hu]
  rfl

@[simp] theorem State.noteIssue_regs (s : State) (x : CtxId) (n : Nat) : (s.noteIssue x n).regs = s.regs := by rw [State.noteIssue_frame]
@[simp] theorem State.noteIssue_slots (s : State) (x : CtxId) (n : Nat) : (s.noteIssue x n).slots = s.slots := by rw [State.noteIssue_frame]
@[simp] theorem State.noteIssue_bridge (s : State) (x : CtxId) (n : Nat) : (s.noteIssue x n).bridge = s.bridge := by
  rw [State.noteIssue_frame]

@[simp] theorem State.noteIssue_reg (s : State) (x : CtxId) (n a : Nat) : (s.noteIssue x n).reg a = s.reg a :=
  State.reg_congr (s.noteIssue_regs x n) a

theorem State.noteIssue_ctx (s : State) (x y : CtxId) (n : Nat) :
    (s.noteIssue x n).ctx y = if y = x then (s.ctx x).noted else s.ctx y := by
  obtain ⟨u, hu, he⟩ := s.noteIssue_eq x n
  rw [he, State.ctx_setCtx, State.marked_ctx hu]

@[simp] theorem State.noteIssue_ctx_self (s : State) (x : CtxId) (n : Nat) : (s.noteIssue x n).ctx x = (s.ctx x).noted := by
  rw [State.noteIssue_ctx, if_pos rfl]

/-! ### An issue's outcome -/

/-- What an instruction that completes leaves of its context: the next PC, and with `wait` STALL until its result returns (R303). -/
def Ctx.gone (c : Ctx) (wait : Bool) : Ctx :=
  { c with pc := c.pc + 1, mode := if wait then .stall else c.mode, stall := if wait then .result else c.stall }

/-- Context x goes on from `t`, where its instruction has had its effect. -/
def State.completes (t : State) (x : CtxId) (wait : Bool) : State := t.setCtx x ((t.ctx x).gone wait)

@[simp] theorem State.completes_regs (t : State) (x : CtxId) (wait : Bool) : (t.completes x wait).regs = t.regs := rfl
@[simp] theorem State.completes_slots (t : State) (x : CtxId) (wait : Bool) : (t.completes x wait).slots = t.slots := rfl
@[simp] theorem State.completes_bridge (t : State) (x : CtxId) (wait : Bool) : (t.completes x wait).bridge = t.bridge := rfl

@[simp] theorem State.completes_reg (t : State) (x : CtxId) (wait : Bool) (a : Nat) : (t.completes x wait).reg a = t.reg a :=
  State.reg_congr (t.completes_regs x wait) a

/-- An instruction that completes. -/
theorem State.issue_go {s t : State} {x : CtxId} {f : Fields} {n : Nat} {legal wait : Bool} {body : State → Res}
    (hr : s.ready x f) (hl : legal = true) (hb : body (s.noteIssue x n) = .go wait t) :
    s.issue x f n legal body = t.completes x wait := by
  obtain ⟨hcan, hrun, hfetch, hop, hcond⟩ := hr
  unfold State.issue
  simp only [hcan, hfetch, hop, hcond, hl, hb, Nat.not_le.mpr hrun, Bool.not_true, Bool.or_self, if_false, Bool.false_eq_true]
  cases wait <;> simp [State.nextPc, State.completes, State.setCtx_setCtx, Ctx.gone]

/-- An instruction that takes a context fault. -/
theorem State.issue_fault {s : State} {x : CtxId} {f : Fields} {n code : Nat} {legal : Bool} {body : State → Res}
    (hr : s.ready x f) (hl : legal = true) (hb : body (s.noteIssue x n) = .fault code) :
    s.issue x f n legal body = (s.noteIssue x 1).ctxFault x code := by
  obtain ⟨hcan, hrun, hfetch, hop, hcond⟩ := hr
  unfold State.issue
  simp [hcan, hfetch, hop, hcond, hl, hb, hrun]

/-- A context of a noted issue that then completes. -/
theorem Ctx.noted_gone (c : Ctx) (f : Fields) (wait : Bool) : c.noted.gone wait = c.after f wait c.fl := by
  simp [Ctx.noted, Ctx.gone, Ctx.after]

/-- A context of a noted issue that then completes with registers written. -/
theorem Ctx.noted_wr_gone (c : Ctx) (f : Fields) (wait : Bool) (i : Nat) (ws : List Word) :
    (c.noted.wr i ws).gone wait = (c.wr i ws).after f wait c.fl := by
  rw [Ctx.noted_wr, Ctx.noted_gone _ f, Ctx.wr_fl]

/-- A state with the marks moved and one context replaced has run that context alone. -/
theorem State.ranOne_setCtx {s u : State} (h : s.marked u) (x : CtxId) (c : Ctx) : s.ranOne (u.setCtx x c) x c := by
  refine ⟨by simp, fun y hy => by simp [hy, State.marked_ctx h], ?_⟩
  unfold State.marked at h
  rw [h]
  rfl

/-- An instruction that writes words to its context's registers and completes runs its context alone. -/
theorem State.ranOne_completes_wr (s : State) (x : CtxId) (f : Fields) (n i : Nat) (ws : List Word) (wait : Bool) :
    s.ranOne (((s.noteIssue x n).onCtx x fun c => c.wr i ws).completes x wait) x (((s.ctx x).wr i ws).after f wait (s.ctx x).fl) := by
  obtain ⟨u, hu, he⟩ := s.noteIssue_eq x n
  rw [State.completes, he, State.onCtx_eq, State.setCtx_setCtx, State.setCtx_setCtx]
  simp only [State.ctx_setCtx, if_true, Ctx.noted_wr_gone _ f]
  exact State.ranOne_setCtx hu x _

/-- An instruction that leaves its context's words and completes. -/
theorem State.ctx_completes {s t : State} {x : CtxId} {n : Nat} (h : t.ctxs = (s.noteIssue x n).ctxs) (f : Fields) (wait : Bool) :
    (t.completes x wait).ctx x = (s.ctx x).after f wait (s.ctx x).fl ∧ ∀ y, y ≠ x → (t.completes x wait).ctx y = s.ctx y := by
  unfold State.completes
  refine ⟨?_, fun y hy => ?_⟩
  · rw [State.ctx_setCtx, if_pos rfl, State.ctx_congr h, State.noteIssue_ctx_self, Ctx.noted_gone _ f]
  · rw [State.ctx_setCtx, if_neg hy, State.ctx_congr h, State.noteIssue_ctx, if_neg hy]

/-! ### Context faults -/

/-- The registers beside STR_CTX_FAULT that a context fault of course c can write. -/
def faultRegs (c : CourseId) : List Nat := [Reg.crsCtxFaults c, Reg.crsCause c, Reg.irqFault, Reg.crsOrphan c]

/-- From `s` to `t` no reference slot and nothing hidden of the bridge changes, and of the registers those of `l` alone. -/
def State.faultFrame (s t : State) (l : List Nat) : Prop := s.regsBut t l ∧ t.slots = s.slots ∧ t.bridge = s.bridge

theorem State.faultFrame_of_eq {s t : State} (l : List Nat) (hr : t.regs = s.regs) (hs : t.slots = s.slots)
    (hb : t.bridge = s.bridge) : s.faultFrame t l := ⟨State.regsBut_of_regs l hr, hs, hb⟩

theorem State.faultFrame_refl (s : State) (l : List Nat) : s.faultFrame s l := State.faultFrame_of_eq l rfl rfl rfl

theorem State.faultFrame_marked {s t : State} (l : List Nat) (h : s.marked t) : s.faultFrame t l :=
  State.faultFrame_of_eq l (State.marked_regs h) (State.marked_slots h) (State.marked_bridge h)

theorem State.faultFrame_trans {s t u : State} {l : List Nat} (h : s.faultFrame t l) (h' : t.faultFrame u l) : s.faultFrame u l := by
  obtain ⟨hr, hs, hb⟩ := h
  obtain ⟨hr', hs', hb'⟩ := h'
  exact ⟨State.regsBut_trans hr hr', hs'.trans hs, hb'.trans hb⟩

theorem State.faultFrame_setReg (s : State) {l : List Nat} {a : Nat} (ha : a ∈ l) (v : Word) : s.faultFrame (s.setReg a v) l :=
  ⟨State.regsBut_setReg (s.regsBut_refl l) ha v, rfl, rfl⟩

theorem State.faultFrame_orReg (s : State) {l : List Nat} {a : Nat} (ha : a ∈ l) (m : Word) : s.faultFrame (s.orReg a m) l :=
  State.faultFrame_trans (t := s.note a m) (State.faultFrame_of_eq l rfl rfl rfl) (State.faultFrame_setReg _ ha _)

theorem State.faultFrame_orphanSlot (s : State) (x : CtxId) : s.faultFrame (s.orphanSlot x) (faultRegs (courseOf x)) := by
  unfold State.orphanSlot
  dsimp only
  split
  case h_1 k _ =>
    refine State.faultFrame_trans ?_ (State.faultFrame_marked _ (State.marked_crsEvent _ _ _ _ _))
    refine State.faultFrame_trans (t := (s.freeSlot (courseOf x) k).onCtx x fun v => { v with slot := none }) ?_ ?_
    · exact State.faultFrame_of_eq _ rfl rfl rfl
    · exact State.faultFrame_setReg _ (by simp [faultRegs]) _
  case h_2 => exact s.faultFrame_refl _

theorem State.faultFrame_endItem (s : State) (x : CtxId) (m : CtxMode) :
    s.faultFrame (s.endItem x m) (faultRegs (courseOf x)) :=
  State.faultFrame_trans (s.faultFrame_orphanSlot x) (State.faultFrame_of_eq _ rfl rfl rfl)

theorem State.faultFrame_errRecord (s : State) {l : List Nat} (hl : Reg.irqFault ∈ l) (code action unit index : Nat) (d1 d2 : Word) :
    s.faultFrame (s.errRecord code action unit index d1 d2) l := by
  unfold State.errRecord
  exact State.faultFrame_trans (State.faultFrame_of_eq l rfl rfl rfl) (State.faultFrame_setReg _ hl _)

/-- A context fault keeps its code and its PC in STR_CTX_FAULT; beside it only registers that count, log and signal faults change. -/
theorem State.faultFrame_ctxFaultAt (s : State) (x : CtxId) (code : Nat) (d1 d2 : Word) :
    (s.setReg (Reg.strCtxFault (strOf x) (x.val % 8)) (BitVec.ofNat 20 (code * 65536 + (s.ctx x).pc.toNat))).faultFrame
      (s.ctxFaultAt x code d1 d2) (faultRegs (courseOf x)) := by
  unfold State.ctxFaultAt
  extract_lets c st pc s1 s2 rec irq s3
  have h2 : s1.faultFrame s2 (faultRegs c) :=
    State.faultFrame_trans (State.faultFrame_setReg _ (by simp [faultRegs]) _)
      (State.faultFrame_trans (State.faultFrame_orReg _ (by simp [faultRegs]) _)
        (State.faultFrame_marked _ (State.marked_strEvent _ _ _ _)))
  have h3 : s2.faultFrame s3 (faultRegs c) := by
    unfold s3
    split
    · exact State.faultFrame_trans (s2.faultFrame_errRecord (by simp [faultRegs]) _ _ _ _ _ _) (State.faultFrame_of_eq _ rfl rfl rfl)
    · exact s2.faultFrame_refl _
  refine State.faultFrame_trans (State.faultFrame_trans h2 h3) ?_
  split
  · exact State.faultFrame_trans (s3.faultFrame_endItem x _) (State.faultFrame_orReg _ (by simp [faultRegs, c]) _)
  · exact s3.faultFrame_endItem x _

/-- No string's STR_CTX_FAULT is a register that counts, logs or signals faults. -/
theorem strCtxFault_not_mem_faultRegs (x : CtxId) : Reg.strCtxFault (strOf x) (x.val % 8) ∉ faultRegs (courseOf x) := by
  have := x.isLt
  simp only [faultRegs, strOf, courseOf, Reg.strCtxFault, Reg.strBase, Reg.crsCtxFaults, Reg.crsCause, Reg.crsOrphan, Reg.crsBase,
    Reg.irqFault, List.mem_cons, List.not_mem_nil, or_false, not_or]
  omega

/-- A noted issue that faults: STR_CTX_FAULT holds the code and the PC; the slots, the bridge and the registers that count no
fault stay. -/
theorem State.ctxFault_noteIssue (s : State) (x : CtxId) (n code : Nat) :
    ((s.noteIssue x n).ctxFault x code).reg (Reg.strCtxFault (strOf x) (x.val % 8)) = BitVec.ofNat 20 (code * 65536 + (s.ctx x).pc.toNat) ∧
    s.faultFrame ((s.noteIssue x n).ctxFault x code) (Reg.strCtxFault (strOf x) (x.val % 8) :: faultRegs (courseOf x)) := by
  have hpc : ((s.noteIssue x n).ctx x).pc = (s.ctx x).pc := by rw [State.noteIssue_ctx_self]; rfl
  have hf := (s.noteIssue x n).faultFrame_ctxFaultAt x code (BitVec.ofNat 20 ((s.noteIssue x n).ctx x).pc.toNat) 0
  rw [hpc] at hf
  rw [State.ctxFault, hpc]
  obtain ⟨hregs, hslots, hbridge⟩ := hf
  refine ⟨?_, fun a ha => ?_, ?_, ?_⟩
  · rw [hregs _ (strCtxFault_not_mem_faultRegs x), State.reg_setReg_self]
  · obtain ⟨hne, hout⟩ := not_or.mp fun h => ha (List.mem_cons.mpr h)
    rw [hregs a hout, State.reg_setReg_ne _ _ hne, State.noteIssue_reg]
  · rw [hslots, State.setReg_slots, State.noteIssue_slots]
  · rw [hbridge, State.setReg_bridge, State.noteIssue_bridge]

end Sys2Proof.Machine
end

section
/-! PROOFS. A post to a reference slot (R165): its code, what a refusal leaves, and that no post touches a context. -/

namespace Sys2Proof.Machine

/-! ### The bridge leaves the contexts -/

theorem State.setBit_ctxs (s : State) (a n : Nat) (b : Bool) : (s.setBit a n b).ctxs = s.ctxs := rfl
theorem State.setFld_ctxs (s : State) (a lo len v : Nat) : (s.setFld a lo len v).ctxs = s.ctxs := rfl
theorem State.orReg_ctxs (s : State) (a : Nat) (m : Word) : (s.orReg a m).ctxs = s.ctxs := rfl
theorem State.setFault_ctxs (s : State) (r : SlotId) (bit : Nat) (v : Bool) : (s.setFault r bit v).ctxs = s.ctxs := rfl
theorem State.rsDrop_ctxs (s : State) (r : SlotId) (k : Nat) : (s.rsDrop r k).ctxs = s.ctxs := rfl
theorem State.setQc_ctxs (s : State) : s.setQc.ctxs = s.ctxs := rfl
theorem State.wantSelect_ctxs (s : State) (rank : Bool) : (s.wantSelect rank).ctxs = s.ctxs := rfl

theorem State.setRs_ctxs (s : State) (r : SlotId) (st : Nat) : (s.setRs r st).ctxs = s.ctxs := by
  unfold State.setRs
  split_ifs
  all_goals simp only [State.setBit_ctxs, State.slot_ctxs, State.orReg_ctxs, State.setFld_ctxs]

theorem State.rsToFault_ctxs (s : State) (r : SlotId) : (s.rsToFault r).ctxs = s.ctxs := by
  unfold State.rsToFault
  extract_lets s1 s2
  have h1 : s1.ctxs = s.ctxs := by rw [State.slot_ctxs, State.setBit_ctxs]
  rw [State.setRs_ctxs]
  unfold s2
  split
  · rw [State.setBit_ctxs, h1]
  · exact h1

theorem State.rsUpdate_ctxs (s : State) (r : SlotId) : (s.rsUpdate r).ctxs = s.ctxs := by
  unfold State.rsUpdate
  extract_lets s1
  have h1 : s1.ctxs = s.ctxs := by
    unfold s1
    split
    · rw [State.slot_ctxs, State.setBit_ctxs]
    · rfl
  split_ifs
  all_goals simp only [State.slot_ctxs, State.setBit_ctxs, State.rsToFault_ctxs, State.setRs_ctxs, h1]

theorem State.setQl_ctxs (s : State) (r : SlotId) (q : Nat) : (s.setQl r q).ctxs = s.ctxs := by
  rw [State.setQl, State.rsUpdate_ctxs, State.setFault_ctxs, State.setFld_ctxs]

theorem State.setPhi_ctxs (s : State) (w : W60) : (s.setPhi w).ctxs = s.ctxs := by
  rw [State.setPhi, State.setBit_ctxs, State.setRegN_ctxs, State.brg_ctxs]

theorem State.setInteg_ctxs (s : State) (w : W60) : (s.setInteg w).ctxs = s.ctxs := by
  rw [State.setInteg, State.setRegN_ctxs, State.brg_ctxs]

theorem State.ladder_ctxs (s : State) : s.ladder.ctxs = s.ctxs := by
  unfold State.ladder
  extract_lets free past unsync was
  split
  extract_lets s1
  have h1 : s1.ctxs = s.ctxs := by simp only [s1, State.setFld_ctxs, State.setBit_ctxs]
  split
  · exact h1
  · rw [State.orReg_ctxs, h1]

theorem State.timeSample_ctxs (s : State) (r : SlotId) (d : Int) (tau : Nat) : (s.timeSample r d tau).ctxs = s.ctxs := by
  unfold State.timeSample
  split
  split
  extract_lets e s0 s1 s2 inside t s3
  have h2 : s2.ctxs = s.ctxs := by rw [State.setQc_ctxs, State.brg_ctxs, State.setBit_ctxs]
  have h3 : s3.ctxs = s.ctxs := by
    unfold s3
    split
    · rw [State.setInteg_ctxs, h2]
    · exact h2
  split
  · rw [State.setPhi_ctxs, h3]
  · exact h3

theorem State.freqSample_ctxs (s : State) (r : SlotId) (y : Int) (tau : Nat) : (s.freqSample r y tau).ctxs = s.ctxs := by
  unfold State.freqSample
  split
  rw [State.setInteg_ctxs, State.brg_ctxs, State.setBit_ctxs]

theorem State.setSelState_ctxs (s : State) (st : Nat) : (s.setSelState st).ctxs = s.ctxs := by
  unfold State.setSelState
  extract_lets old s1 s2 rate a t s3
  have h2 : s2.ctxs = s.ctxs := by rw [State.brg_ctxs, State.orReg_ctxs, State.setFld_ctxs]
  rw [State.ladder_ctxs]
  unfold s3
  split
  · rw [State.setBit_ctxs, State.showTe, State.setRegN_ctxs, State.setRegN_ctxs, State.brg_ctxs, h2]
  · exact h2

theorem State.startStep_ctxs (s : State) (v : Int) : (s.startStep v).ctxs = s.ctxs := by
  unfold State.startStep
  split
  · rfl
  · rw [State.setRegN_ctxs, State.setBit_ctxs, State.setBit_ctxs, State.brg_ctxs]

theorem State.switchDone_ctxs (s : State) (r : SlotId) (left : Nat) (e : Frac) (last : Int) :
    (s.switchDone r left e last).ctxs = s.ctxs := by
  unfold State.switchDone
  extract_lets opened s0 s1 mean big pol s2 e0
  have h1 : s1.ctxs = s.ctxs := by
    unfold s1
    split
    all_goals simp only [s0, State.brg_ctxs, State.setInteg_ctxs, State.setBit_ctxs]
  rw [State.brg_ctxs]
  unfold s2
  split_ifs
  all_goals simp only [State.startStep_ctxs, State.setPhi_ctxs, State.orReg_ctxs, State.setBit_ctxs, State.brg_ctxs, h1]

theorem State.completeSwitch_ctxs (s : State) (r : SlotId) (last : Int) : (s.completeSwitch r last).ctxs = s.ctxs := by
  rw [State.completeSwitch, State.setSelState_ctxs, State.switchDone_ctxs, State.setRs_ctxs]

theorem State.useSample_ctxs (s : State) (r : SlotId) (held : Bool) (v : Int) (tau : Nat) :
    (s.useSample r held v tau).ctxs = s.ctxs := by
  unfold State.useSample
  extract_lets s1 n s2
  have h2 : s2.ctxs = s.ctxs := by rw [State.setFld_ctxs, State.brg_ctxs]
  split_ifs
  all_goals simp only [State.timeSample_ctxs, State.freqSample_ctxs, State.completeSwitch_ctxs, h2]

theorem State.rsFed_ctxs (s : State) (r : SlotId) (n : Nut) : (s.rsFed r n).ctxs = s.ctxs := by
  rw [State.rsFed, State.rsUpdate_ctxs, State.setFault_ctxs, State.slot_ctxs]

theorem State.acceptPhase_ctxs (s : State) (r : SlotId) (held : Bool) (nm : Nut) (d : Int) (mpd : Option Nat) :
    (s.acceptPhase r held nm d mpd).ctxs = s.ctxs := by
  unfold State.acceptPhase
  extract_lets x tau s1 s2 s3
  have h2 : s2.ctxs = s.ctxs := by rw [State.slot_ctxs, State.setRegN_ctxs, State.setRegN_ctxs]
  have h3 : s3.ctxs = s2.ctxs := by
    unfold s3
    split
    · exact State.brg_ctxs _ _
    · rfl
  rw [State.useSample_ctxs, State.rsFed_ctxs, h3, h2]

theorem State.crossSums_ctxs (s : State) (r : SlotId) (d : Int) : (s.crossSums r d).ctxs = s.ctxs := by
  unfold State.crossSums
  refine foldFin_keeps (P := fun u : State => u.ctxs = s.ctxs) _ _ _ ?_ fun k u h => ?_
  · split
    · exact State.slot_ctxs _ _ _
    · rfl
  · split
    · rw [State.slot_ctxs, h]
    · exact h

/-- A recovery run's samples, taken one after another (R170). -/
theorem State.recover_ctxs (r : SlotId) (held : Bool) (run : List (Nut × Int × Option Nat)) (s : State) :
    (run.foldl (fun u e => (u.crossSums r e.2.1).acceptPhase r held e.1 e.2.1 e.2.2) s).ctxs = s.ctxs := by
  induction run generalizing s with
  | nil => rfl
  | cons e run ih => rw [List.foldl_cons, ih, State.acceptPhase_ctxs, State.crossSums_ctxs]

theorem State.phaseSample_ctxs (s : State) (r : SlotId) (nm : Nut) (d : Int) (mpd : Option Nat) :
    (s.phaseSample r nm d mpd).ctxs = s.ctxs := by
  unfold State.phaseSample
  extract_lets x held run s1 s2 outlier
  have h1 : s1.ctxs = s.ctxs := by
    unfold s1
    split
    · exact State.rsDrop_ctxs _ _ _
    · rfl
  have h2 : s2.ctxs = s.ctxs := by rw [State.setFault_ctxs, State.slot_ctxs, h1]
  have h3 : outlier.ctxs = s.ctxs := by rw [State.slot_ctxs, State.rsDrop_ctxs]
  split_ifs
  · rfl
  · rw [State.slot_ctxs, h1]
  · rw [State.recover_ctxs, h2]
  · rw [State.rsUpdate_ctxs, State.setFault_ctxs, State.slot_ctxs, h3]
  · exact h3
  · rw [State.acceptPhase_ctxs, State.crossSums_ctxs, State.slot_ctxs]

theorem State.routeChange_ctxs (s : State) (r : SlotId) (mpd : Option Nat) : (s.routeChange r mpd).ctxs = s.ctxs := by
  rw [State.routeChange, State.rsUpdate_ctxs, State.setFault_ctxs, State.setBit_ctxs, State.setFld_ctxs, State.slot_ctxs]

theorem State.postSample_ctxs (s : State) (r : SlotId) (nm : Nut) (d : W60) (mpd : Nat) (w9 : Word) :
    (s.postSample r nm d mpd w9).ctxs = s.ctxs := by
  unfold State.postSample
  rw [State.setRegN_ctxs]
  split
  · rw [State.phaseSample_ctxs, State.routeChange_ctxs]
  · exact State.phaseSample_ctxs _ _ _ _ _

/-! ### The post -/

/-- A post without a sample, which brings QL alone. -/
theorem State.postCode_quality {s : State} {r : SlotId} {nm : Nut} {w9 : Word} (h : bitOf w9 17 = true) :
    s.postCode r nm w9 = if s.rBit (Reg.brgRsCfg r) 5 then 0 else 1 := by
  rw [State.postCode, if_pos h]

/-- A sample for a slot that is not POSTED. -/
theorem State.postCode_notPosted {s : State} {r : SlotId} {nm : Nut} {w9 : Word} (h : bitOf w9 17 = false) (hsrc : s.rsSrc r ≠ 4) :
    s.postCode r nm w9 = 1 := by
  simp [State.postCode, h, hsrc]

/-- A sample no later than the last accepted one. -/
theorem State.postCode_old {s : State} {r : SlotId} {nm : Nut} {w9 : Word} (h : bitOf w9 17 = false) (hsrc : s.rsSrc r = 4)
    (hgot : (s.slots.get r).got = true) (hold : nm.toNat ≤ (s.reg80 (Reg.brgRsLastnm r)).toNat) : s.postCode r nm w9 = 2 := by
  simp [State.postCode, h, hsrc, hgot, hold]

/-- A sample later than the last accepted one, or the slot's first. -/
theorem State.postCode_new {s : State} {r : SlotId} {nm : Nut} {w9 : Word} (h : bitOf w9 17 = false) (hsrc : s.rsSrc r = 4)
    (hnew : (s.slots.get r).got = true → (s.reg80 (Reg.brgRsLastnm r)).toNat < nm.toNat) :
    s.postCode r nm w9 = if s.nut.toNat < nm.toNat then 3 else 0 := by
  have hfresh : ((s.slots.get r).got && decide (nm.toNat ≤ (s.reg80 (Reg.brgRsLastnm r)).toNat)) = false := by
    simpa using hnew
  simp [State.postCode, h, hsrc, hfresh]

/-- A code fits the 4 bits that POST gives it. -/
theorem State.postCode_lt (s : State) (r : SlotId) (nm : Nut) (w9 : Word) : s.postCode r nm w9 < 16 := by
  unfold State.postCode
  split_ifs <;> decide

/-- The note of an issue leaves what a post is judged by. -/
theorem State.noteIssue_postCode (s : State) (x : CtxId) (n : Nat) (r : SlotId) (nm : Nut) (w9 : Word) :
    (s.noteIssue x n).postCode r nm w9 = s.postCode r nm w9 := by
  rw [State.noteIssue_frame]
  rfl

/-- A post has the code of R165. -/
theorem State.post_code (s : State) (r : SlotId) (nm : Nut) (d : W60) (mpd : Nat) (w9 : Word) :
    (s.post r nm d mpd w9).1 = s.postCode r nm w9 := by
  unfold State.post
  dsimp only
  split
  · rfl
  · next h => exact (not_not.mp h).symm

/-- A refused post sets POST_ERR and its cause, and changes nothing else (R165). -/
theorem State.post_refused {s : State} {r : SlotId} {nm : Nut} {w9 : Word} (d : W60) (mpd : Nat) (h : s.postCode r nm w9 ≠ 0) :
    (s.post r nm d mpd w9).2 = s.postErr r := by
  unfold State.post
  dsimp only
  rw [if_pos h]

/-- A refused post is seen in POST_ERR of its slot and in its cause. -/
theorem State.postErr_bits (s : State) (r : SlotId) :
    (s.postErr r).rBit (Reg.brgRsStat r) 6 = true ∧ (s.postErr r).rBit Reg.brgCause 16 = true := by
  have hne : Reg.brgRsStat r ≠ Reg.brgCause := by
    simp only [Reg.brgRsStat, Reg.slotBase, Reg.brgCause]
    omega
  unfold State.postErr
  constructor
  · rw [State.orReg_eq, State.rBit_setReg, if_neg hne]
    exact (State.rBit_setReg _ _ _ _ _).trans (by rw [if_pos rfl, bitOf_putBit _ _ _ _ (by decide), if_pos rfl])
  · rw [State.orReg_eq, State.rBit_setReg, if_pos rfl, bitOf, BitVec.getLsbD_or]
    simp

/-- No post touches a context. -/
theorem State.post_ctxs (s : State) (r : SlotId) (nm : Nut) (d : W60) (mpd : Nat) (w9 : Word) :
    (s.post r nm d mpd w9).2.ctxs = s.ctxs := by
  unfold State.post
  extract_lets c q s1 rank s2
  have h1 : s1.ctxs = s.ctxs := by
    unfold s1
    split
    · exact State.setQl_ctxs _ _ _
    · rfl
  have h2 : s2.ctxs = s.ctxs := by
    unfold s2
    split
    · exact h1
    · rw [State.postSample_ctxs, h1]
  split
  · rw [State.postErr, State.orReg_ctxs, State.setBit_ctxs]
  · rw [State.wantSelect_ctxs, h2]

end Sys2Proof.Machine
end

section
/-! PROOFS. RDCNT, TAGRD, TAGWR, POST and DBELL, one rule each, and the obligation they make up. -/

namespace Sys2Proof.Machine

variable {s : State} {x : CtxId} {f : Fields}

/-! ### Counters and tag areas -/

/-- An instruction that runs its context alone leaves every counter as it stood at the start of the tick. -/
theorem State.ranOne_cntNow {t : State} {c : Ctx} (h : s.ranOne t x c) (n : Nat) : t.cntNow n = s.cntNow n := by
  obtain ⟨-, -, ht⟩ := h
  rw [ht]
  rfl

/-- The four words that RDCNT gives (R430). -/
def State.cntWords (s : State) (f : Fields) : List Word :=
  let v := if f.m 0 then s.cntBank f.imm.toNat else s.cntNow f.imm.toNat
  toWords 3 v.val.toNat ++ [BitVec.ofNat 20 ((if v.ovf then 0x80000 else 0) + (if f.m 0 then 0x40000 + s.rFld Reg.dmpSeq 0 16 else 0))]

/-- RDCNT of a counter that the context may read, where its course's replica serves (R327, R430, R451). -/
theorem exec_rdcnt (hr : s.ready x f) (hw : f.w = 4) (hd : chordOk f.dst 4 = true) (hv : cntValid f.imm.toNat = true)
    (hp : (s.ctx x).sys = true ∨ s.rBit (Reg.crsPerm (courseOf x)) (permBit (courseOf x) f.imm.toNat) = true)
    (hs : (s.replicas.get ⟨(courseOf x).val, by omega⟩).fence = .service) :
    exec (.rdcnt x f) s = .next (((s.noteIssue x 1).onCtx x fun c => c.wr f.dst.toNat (s.cntWords f)).completes x true) := by
  have hnow : (s.noteIssue x 1).cntNow f.imm.toNat = s.cntNow f.imm.toNat := by rw [State.noteIssue_frame]; rfl
  have hbank : (s.noteIssue x 1).cntBank f.imm.toNat = s.cntBank f.imm.toNat := by rw [State.noteIssue_frame]; rfl
  have hserves : (s.noteIssue x 1).replicaOut (courseOf x) = false := by
    rw [State.noteIssue_frame]
    simp [State.replicaOut, hs]
  have hperm : (!((s.noteIssue x 1).ctx x).sys &&
      !(s.noteIssue x 1).rBit (Reg.crsPerm (courseOf x)) (permBit (courseOf x) f.imm.toNat)) = false := by
    simpa [State.rBit, Ctx.noted, or_iff_not_imp_left] using hp
  have hovf : ∀ b : Bool, b.toNat * 2 ^ 19 = if b then 0x80000 else 0 := by decide
  refine congrArg Host.Outcome.next (State.issue_go hr ?_ ?_)
  · simp [hw, hd, hv]
  · simp only [hperm, hserves, hnow, hbank, hovf, State.cntWords, State.rFld, State.noteIssue_reg]
    rfl

/-- RDCNT gives the counter as it stands after it or, with MODE[0], as the bank holds it. -/
theorem rdcnt_gives (hr : s.ready x f) (hw : f.w = 4) (hd : chordOk f.dst 4 = true) (hv : cntValid f.imm.toNat = true)
    (hp : (s.ctx x).sys = true ∨ s.rBit (Reg.crsPerm (courseOf x)) (permBit (courseOf x) f.imm.toNat) = true)
    (hs : (s.replicas.get ⟨(courseOf x).val, by omega⟩).fence = .service) :
    ∃ t, exec (.rdcnt x f) s = .next t ∧
      (let v := if f.m 0 then s.cntBank f.imm.toNat else t.cntNow f.imm.toNat
       s.ranOne t x (((s.ctx x).wr f.dst.toNat (toWords 3 v.val.toNat ++ [BitVec.ofNat 20 ((if v.ovf then 0x80000 else 0) +
        (if f.m 0 then 0x40000 + s.rFld Reg.dmpSeq 0 16 else 0))])).after f true (s.ctx x).fl)) := by
  have hran := s.ranOne_completes_wr x f 1 f.dst.toNat (s.cntWords f) true
  refine ⟨_, exec_rdcnt hr hw hd hv hp hs, ?_⟩
  rw [State.ranOne_cntNow hran]
  exact hran

theorem tagArg_eq (f : Fields) : tagArg f = f.imm.toNat % 128 := by simp [tagArg, fld]

/-- TAGRD (R370). -/
theorem tagrd_gives (hr : s.ready x f) (hw : f.w = 4) (hd : chordOk f.dst 4 = true) (ha : f.imm.toNat % 128 ≤ 78) :
    s.gives (.tagrd x f) x f true 4 (s.regN (Reg.tag (f.imm.toNat % 128)) 4) (s.ctx x).fl := by
  refine ⟨_, congrArg Host.Outcome.next (State.issue_go hr ?_ ?_), s.ranOne_completes_wr x f 1 f.dst.toNat _ true⟩
  · simp [hw, hd, tagArg_eq, ha]
  · simp [State.setChord, tagArg_eq, State.regN_congr (s.noteIssue_regs x 1)]

/-- TAGWR of a system context (R370). -/
theorem tagwr_sets (hr : s.ready x f) (hw : f.w = 4) (hc : chordOk f.srca 4 = true) (ha : f.imm.toNat % 128 ≤ 78)
    (hsys : (s.ctx x).sys = true) :
    ∃ t, exec (.tagwr x f) s = .next t ∧ t.ctx x = (s.ctx x).after f true (s.ctx x).fl ∧
      t.regN (Reg.tag (f.imm.toNat % 128)) 4 = (s.ctx x).chord f.srca.toNat 4 ∧
      s.regsBut t (wordsAt (Reg.tag (f.imm.toNat % 128)) 4) ∧ ∀ y, y ≠ x → t.ctx y = s.ctx y := by
  obtain ⟨hself, hothers⟩ := State.ctx_completes
    (State.setRegN_ctxs (s.noteIssue x 1) (Reg.tag (f.imm.toNat % 128)) 4 ((s.ctx x).chord f.srca.toNat 4)) f true
  refine ⟨_, congrArg Host.Outcome.next (State.issue_go hr ?_ ?_), hself, ?_, fun a ha => ?_, hothers⟩
  · simp [hw, hc, tagArg_eq, ha]
  · have hs : (s.ctx x).noted.sys = true := hsys
    simp only [State.noteIssue_ctx_self, hs, tagArg_eq]
    rfl
  · rw [State.regN_congr (State.completes_regs _ _ _), State.regN_setRegN, Nat.mod_eq_of_lt (Ctx.chord_lt _ _ _)]
  · rw [State.completes_reg, State.regsBut_setRegN _ _ _ _ a ha, State.noteIssue_reg]

/-- DBELL (R370, R446). -/
theorem dbell_sets (hr : s.ready x f) (hw : f.w = 1) (hi : f.imm.toNat < 16) :
    ∃ t, exec (.dbell x f) s = .next t ∧ t.ctx x = (s.ctx x).after f false (s.ctx x).fl ∧
      t.reg (Reg.irqDbell (courseOf x)) = putBit (s.reg (Reg.irqDbell (courseOf x))) f.imm.toNat true ∧
      s.regsBut t [Reg.irqDbell (courseOf x)] ∧ ∀ y, y ≠ x → t.ctx y = s.ctx y := by
  obtain ⟨hself, hothers⟩ := State.ctx_completes
    (State.setBit_ctxs (s.noteIssue x 1) (Reg.irqDbell (courseOf x)) f.imm.toNat true) f false
  have himm : f.imm.toNat >>> 4 = 0 := by rw [Nat.shiftRight_eq_div_pow]; omega
  refine ⟨_, congrArg Host.Outcome.next (State.issue_go hr ?_ ?_), hself, ?_, fun a ha => ?_, hothers⟩
  · simp [hw, fld, himm]
  · simp [fld, Nat.mod_eq_of_lt hi]
  · simp
  · simp [List.mem_singleton.not.mp ha]

/-! ### User contexts -/

/-- No tag area lies among the registers that a context fault writes. -/
theorem tag_not_mem_faultRegs (x : CtxId) {n a : Nat} (ha : Reg.tag n ≤ a) :
    a ∉ Reg.strCtxFault (strOf x) (x.val % 8) :: faultRegs (courseOf x) := by
  have := x.isLt
  simp only [faultRegs, strOf, courseOf, Reg.tag, Reg.strCtxFault, Reg.strBase, Reg.crsCtxFaults, Reg.crsCause, Reg.crsOrphan,
    Reg.crsBase, Reg.irqFault, List.mem_cons, List.not_mem_nil, or_false, not_or] at ha ⊢
  omega

/-- TAGWR of a user context: a PRIV fault, and the tag area stays (R326, R329). -/
theorem tagwr_faults (hr : s.ready x f) (hw : f.w = 4) (hc : chordOk f.srca 4 = true) (ha : f.imm.toNat % 128 ≤ 78)
    (hsys : (s.ctx x).sys = false) :
    ∃ t, exec (.tagwr x f) s = .next t ∧
      t.reg (Reg.strCtxFault (strOf x) (x.val % 8)) = BitVec.ofNat 20 (0x20000 + (s.ctx x).pc.toNat) ∧
      t.regN (Reg.tag (f.imm.toNat % 128)) 4 = s.regN (Reg.tag (f.imm.toNat % 128)) 4 := by
  obtain ⟨hcode, hregs, -, -⟩ := s.ctxFault_noteIssue x 1 Flt.priv
  refine ⟨_, congrArg Host.Outcome.next (State.issue_fault hr ?_ ?_), hcode, ?_⟩
  · simp [hw, hc, tagArg_eq, ha]
  · simp [Ctx.noted, hsys]
  · exact State.regN_congr_words fun i _ => hregs _ (tag_not_mem_faultRegs x (Nat.le_add_right _ _))

/-- POST of a user context: a PRIV fault, and the slots and the bridge stay (R326, R329). -/
theorem post_faults (hr : s.ready x f) (hw : f.w = 1) (ha : f.srca.toNat % 16 = 0) (hsys : (s.ctx x).sys = false) :
    ∃ t, exec (.post x f) s = .next t ∧ t.slots = s.slots ∧ t.bridge = s.bridge ∧
      t.reg (Reg.strCtxFault (strOf x) (x.val % 8)) = BitVec.ofNat 20 (0x20000 + (s.ctx x).pc.toNat) := by
  obtain ⟨hcode, -, hslots, hbridge⟩ := s.ctxFault_noteIssue x 1 Flt.priv
  refine ⟨_, congrArg Host.Outcome.next (State.issue_fault hr ?_ ?_), hslots, hbridge, hcode⟩
  · simp [hw, ha]
  · simp [Ctx.noted, hsys]

/-! ### Posts -/

/-- The code of a post in the word that POST gives, beside 16 free bits. -/
theorem fld_postWord {code : Nat} (hc : code < 16) (v : BitVec 16) : fld (BitVec.ofNat 20 (code * 65536 + v.toNat)) 16 4 = code := by
  have hv := v.isLt
  rw [fld, BitVec.toNat_ofNat, Nat.shiftRight_eq_div_pow]
  omega

/-- POST has told its context the code (R371): in G(DST) and, with SF = 1, in Z. -/
def State.toldPost (s t : State) (x : CtxId) (f : Fields) (code : Nat) : Prop :=
  fld ((t.ctx x).r f.dst.toNat) 16 4 = code ∧ (t.ctx x).pc = (s.ctx x).pc + 1 ∧ (t.ctx x).mode = .stall ∧
  (f.sf = true → (t.ctx x).fl = { (s.ctx x).fl with z := decide (code = 0) }) ∧
  ∀ i, i < 64 → i ≠ f.dst.toNat → (t.ctx x).r i = (s.ctx x).r i

/-- The context that POST leaves: the code beside free bits `v` in G(DST), and Z. -/
def Ctx.told (c : Ctx) (f : Fields) (code : Nat) (v : BitVec 16) : Ctx :=
  let d := c.wr f.dst.toNat [BitVec.ofNat 20 (code * 65536 + v.toNat)]
  { d with fl := if f.sf then { d.fl with z := code == 0 } else d.fl }

/-- The post that a POST makes on `s`: its code, and the state after it. -/
def State.posted (s : State) (c : Ctx) (f : Fields) : Nat × State :=
  let a := f.srca.toNat
  s.post (Fin.ofNat 16 (f.imm.toNat % 16)) (BitVec.ofNat 80 (c.chord a 4)) (BitVec.ofNat 60 (c.chord (a + 4) 3))
    (c.chord (a + 8) 2) (c.r (a + 10))

/-- The code that R165 has for it. -/
def State.postedCode (s : State) (c : Ctx) (f : Fields) : Nat :=
  s.postCode (Fin.ofNat 16 (f.imm.toNat % 16)) (BitVec.ofNat 80 (c.chord f.srca.toNat 4)) (c.r (f.srca.toNat + 10))

/-- POST of a system context makes its post, takes a free value and tells its context. -/
theorem exec_post (hr : s.ready x f) (hw : f.w = 1) (ha : f.srca.toNat % 16 = 0) (hsys : (s.ctx x).sys = true) :
    let p := (s.noteIssue x 1).posted (s.ctx x) f
    exec (.post x f) s = .next (((p.2.free 16).2.onCtx x fun c => c.told f p.1 (p.2.free 16).1).completes x true) := by
  intro p
  refine congrArg Host.Outcome.next (State.issue_go hr ?_ ?_)
  · simp [hw, ha]
  · have hs : (s.ctx x).noted.sys = true := hsys
    simp only [hs, Bool.not_true, Bool.false_eq_true, if_false, State.onCtx_eq, State.setFlags_setCtx, State.noteIssue_ctx_self,
      fld, Nat.shiftRight_zero]
    rfl

/-- The context of a completed POST has been told the post's code. -/
theorem toldPost_completes (t : State) (v : BitVec 16) {code : Nat} (hcode : code < 16) (hc : t.ctx x = (s.ctx x).noted) :
    s.toldPost ((t.onCtx x fun c => c.told f code v).completes x true) x f code := by
  have hctx : ((t.onCtx x fun c => c.told f code v).completes x true).ctx x = ((s.ctx x).noted.told f code v).gone true := by
    simp [State.completes, hc]
  have hreg : ∀ i, i < 64 → (((s.ctx x).noted.told f code v).gone true).r i =
      if i = f.dst.toNat then BitVec.ofNat 20 (code * 65536 + v.toNat) else (s.ctx x).r i := fun i hi =>
    Ctx.r_wr_one (s.ctx x).noted f.dst.toNat i _ f.dst.isLt hi
  unfold State.toldPost
  rw [hctx]
  refine ⟨?_, ?_, rfl, fun hsf => ?_, fun i hi hne => ?_⟩
  · rw [hreg _ f.dst.isLt, if_pos rfl, fld_postWord hcode]
  · simp [Ctx.gone, Ctx.told, Ctx.noted]
  · simp [Ctx.gone, Ctx.told, Ctx.noted, hsf, beq_eq_decide]
  · rw [hreg i hi, if_neg hne]

/-- POST of a system context: it completes, tells its context the code that R165 has, and leaves the registers, slots and bridge as
the post did. -/
theorem post_tells (hr : s.ready x f) (hw : f.w = 1) (ha : f.srca.toNat % 16 = 0) (hsys : (s.ctx x).sys = true) :
    ∃ t, exec (.post x f) s = .next t ∧ s.toldPost t x f (s.postedCode (s.ctx x) f) ∧
      t.regs = ((s.noteIssue x 1).posted (s.ctx x) f).2.regs ∧ t.slots = ((s.noteIssue x 1).posted (s.ctx x) f).2.slots ∧
      t.bridge = ((s.noteIssue x 1).posted (s.ctx x) f).2.bridge := by
  refine ⟨_, exec_post hr hw ha hsys, ?_, by simp, by simp, by simp⟩
  have hcode : ((s.noteIssue x 1).posted (s.ctx x) f).1 = s.postedCode (s.ctx x) f := by
    rw [State.posted, State.post_code, State.noteIssue_postCode]
    rfl
  rw [hcode]
  refine toldPost_completes _ _ (s.postCode_lt _ _ _) ?_
  have hctxs : (((s.noteIssue x 1).posted (s.ctx x) f).2.free 16).2.ctxs = (s.noteIssue x 1).ctxs := by
    rw [State.free_ctxs, State.posted, State.post_ctxs]
  rw [State.ctx_congr hctxs, State.noteIssue_ctx_self]

/-- A post accepted. -/
theorem post_accepted (hr : s.ready x f) (hw : f.w = 1) (ha : f.srca.toNat % 16 = 0) (hsys : (s.ctx x).sys = true)
    (hcode : s.postedCode (s.ctx x) f = 0) : ∃ t, exec (.post x f) s = .next t ∧ s.toldPost t x f 0 := by
  obtain ⟨t, hexec, htold, -⟩ := post_tells hr hw ha hsys
  exact ⟨t, hexec, hcode ▸ htold⟩

/-- A post refused: POST_ERR and its cause are set, and the slots and the bridge stay (R165). -/
theorem post_refuses (hr : s.ready x f) (hw : f.w = 1) (ha : f.srca.toNat % 16 = 0) (hsys : (s.ctx x).sys = true) {code : Nat}
    (hcode : s.postedCode (s.ctx x) f = code) (hne : code ≠ 0) :
    ∃ t, exec (.post x f) s = .next t ∧ s.toldPost t x f code ∧
      t.rBit (Reg.brgRsStat (Fin.ofNat 16 (f.imm.toNat % 16) : SlotId)) 6 = true ∧ t.rBit Reg.brgCause 16 = true ∧
      t.slots = s.slots ∧ t.bridge = s.bridge := by
  obtain ⟨t, hexec, htold, hregs, hslots, hbridge⟩ := post_tells hr hw ha hsys
  have herr : ((s.noteIssue x 1).posted (s.ctx x) f).2 = (s.noteIssue x 1).postErr (Fin.ofNat 16 (f.imm.toNat % 16)) :=
    State.post_refused _ _ (by rw [State.noteIssue_postCode]; exact hcode.trans_ne hne)
  rw [herr] at hregs hslots hbridge
  obtain ⟨hstat, hcause⟩ := (s.noteIssue x 1).postErr_bits (Fin.ofNat 16 (f.imm.toNat % 16))
  refine ⟨t, hexec, hcode ▸ htold, ?_, ?_, ?_, ?_⟩
  · rw [State.rBit, State.reg_congr hregs]
    exact hstat
  · rw [State.rBit, State.reg_congr hregs]
    exact hcause
  · rw [hslots]
    exact s.noteIssue_slots x 1
  · rw [hbridge]
    exact s.noteIssue_bridge x 1

end Sys2Proof.Machine

open Sys2Proof Sys2Proof.Machine

/-- Settles O54: each instruction's rule, and for POST each case of R165. -/
theorem systemInstructions : Obligations.SystemInstructions := by
  unfold Obligations.SystemInstructions
  intro s x f hr c k area
  refine ⟨rdcnt_gives hr, tagrd_gives hr, tagwr_sets hr, ?_, dbell_sets hr, fun hsys => ⟨?_, ?_⟩⟩
  · intro hw ha hsys r nm w9 tells refused
    have accepted : s.postCode r nm w9 = 0 → ∃ t, exec (.post x f) s = .next t ∧ tells t 0 := post_accepted hr hw ha hsys
    have refuses : ∀ code, s.postCode r nm w9 = code → code ≠ 0 → refused code := fun code => post_refuses hr hw ha hsys
    refine ⟨fun hq hacc => ?_, fun hq hacc => ?_, fun hq hsrc => ?_, fun hq hsrc hgot hold => ?_,
      fun hq hsrc hnew => ⟨fun hlate => ?_, fun hle => ?_⟩⟩
    · exact accepted (by rw [State.postCode_quality hq, if_pos hacc])
    · exact refuses 1 (by rw [State.postCode_quality hq, hacc]; rfl) (by decide)
    · exact refuses 1 (State.postCode_notPosted hq hsrc) (by decide)
    · exact refuses 2 (State.postCode_old hq hsrc hgot hold) (by decide)
    · exact refuses 3 (by rw [State.postCode_new hq hsrc hnew, if_pos hlate]) (by decide)
    · exact accepted (by rw [State.postCode_new hq hsrc hnew, if_neg (Nat.not_lt.mpr hle)])
  · rintro ⟨hw, hc, ha⟩
    exact tagwr_faults hr hw hc ha hsys
  · rintro ⟨hw, ha⟩
    exact post_faults hr hw ha hsys
end

section
/-! PROOFS. The requests of DEV_RST (R471): a write of the register is one operation whichever command carries it, and a warm reset
sweeps ports, courses and harp without a write of the nut or of PWR_STAT. -/

namespace Sys2Proof.Machine

/-! ### What a warm reset leaves: the nut and PWR_STAT -/

/-- Entries dropped at other addresses leave what an address lists. -/
theorem Sparse.find_filter {α : Type} (l : Sparse α) (p : Nat × α → Bool) {a : Nat} (h : ∀ v, p (a, v) = true) :
    Sparse.find (l.filter p) a = Sparse.find l a := by
  induction l with
  | nil => rfl
  | cons e l ih =>
    obtain ⟨b, v⟩ := e
    by_cases hb : a = b
    · subst hb
      rw [List.filter_cons_of_pos (h v), Sparse.find, Sparse.find, if_pos rfl, if_pos rfl]
    · rw [Sparse.find, if_neg hb, ← ih, List.filter_cons]
      split
      · rw [Sparse.find, if_neg hb]
      · rfl

/-- The nut and PWR_STAT of a state. -/
def State.nutStat (s : State) : Nut × Word := (s.nut, s.reg Reg.pwrStat)

theorem State.nutStat_congr {s t : State} (hn : t.nut = s.nut) (hr : t.regs = s.regs) : t.nutStat = s.nutStat :=
  Prod.ext hn (State.reg_congr hr _)

theorem State.nutStat_eq_iff {s t : State} : t.nutStat = s.nutStat ↔ t.nut = s.nut ∧ t.reg Reg.pwrStat = s.reg Reg.pwrStat :=
  Prod.ext_iff

theorem State.nutStat_marked {s t : State} (h : s.marked t) : t.nutStat = s.nutStat :=
  State.nutStat_congr (by rw [h]) (State.marked_regs h)

@[simp] theorem State.nutStat_setReg (s : State) {a : Nat} (v : Word) (h : a ≠ Reg.pwrStat) : (s.setReg a v).nutStat = s.nutStat :=
  Prod.ext (s.setReg_nut a v) (State.reg_setReg_ne s v h.symm)

@[simp] theorem State.nutStat_note (s : State) (a : Nat) (m : Word) : (s.note a m).nutStat = s.nutStat := rfl
@[simp] theorem State.nutStat_free (s : State) (w : Nat) : (s.free w).2.nutStat = s.nutStat := rfl
@[simp] theorem State.nutStat_setCtx (s : State) (x : CtxId) (c : Ctx) : (s.setCtx x c).nutStat = s.nutStat := rfl
@[simp] theorem State.nutStat_onCourse (s : State) (c : CourseId) (f : Course → Course) : (s.onCourse c f).nutStat = s.nutStat := rfl
@[simp] theorem State.nutStat_onPort (s : State) (p : PortId) (f : PortSt → PortSt) : (s.onPort p f).nutStat = s.nutStat := rfl
@[simp] theorem State.nutStat_onHarp (s : State) (f : Harp → Harp) : (s.onHarp f).nutStat = s.nutStat := rfl
@[simp] theorem State.nutStat_brg (s : State) (f : Bridge → Bridge) : (s.brg f).nutStat = s.nutStat := rfl
@[simp] theorem State.nutStat_slot (s : State) (r : SlotId) (f : Slot → Slot) : (s.slot r f).nutStat = s.nutStat := rfl
@[simp] theorem State.nutStat_setPluck (s : State) (g : PluckId) (p : Pluck) : (s.setPluck g p).nutStat = s.nutStat := rfl
@[simp] theorem State.nutStat_setEdge (s : State) (o : OutId) (e : Edge) : (s.setEdge o e).nutStat = s.nutStat := rfl
@[simp] theorem State.nutStat_depart (s : State) (x : Fin 56) (i : Xfer) : (s.depart x i).nutStat = s.nutStat := rfl
@[simp] theorem State.nutStat_withTunings (s : State) (l : Vector Tuning 16) : ({ s with tunings := l }).nutStat = s.nutStat := rfl
@[simp] theorem State.nutStat_withPanel (s : State) (y : Panel) : ({ s with panel := y }).nutStat = s.nutStat := rfl
@[simp] theorem State.nutStat_withBad (s : State) (l : List (MemKind × Nat × Nat)) : ({ s with bad := l }).nutStat = s.nutStat := rfl
@[simp] theorem State.nutStat_crsEvent (s : State) (c : CourseId) (e : Nat) (q : Option Nat) (n : Nat) :
    (s.crsEvent c e q n).nutStat = s.nutStat := State.nutStat_marked (s.marked_crsEvent c e q n)

/-- Register words dropped at other addresses. -/
theorem State.nutStat_filter (s : State) (keep : Nat × Word → Bool) (h : ∀ v, keep (Reg.pwrStat, v) = true) :
    ({ s with regs := s.regs.filter keep }).nutStat = s.nutStat :=
  Prod.ext rfl (congrArg (fun o : Option Word => o.getD (regReset Reg.pwrStat)) (Sparse.find_filter s.regs keep h))

@[simp] theorem State.nutStat_clearRegs (s : State) {lo hi : Nat} (h : Reg.pwrStat < lo ∨ hi ≤ Reg.pwrStat) :
    (s.clearRegs lo hi).nutStat = s.nutStat :=
  s.nutStat_filter _ fun _ => by simp; omega

/-- A fold whose steps leave the nut and PWR_STAT leaves them. -/
theorem State.nutStat_foldl {β : Type} {f : State → β → State} (h : ∀ u e, (f u e).nutStat = u.nutStat) (l : List β) (s : State) :
    (l.foldl f s).nutStat = s.nutStat := by
  induction l generalizing s with
  | nil => rfl
  | cons e l ih => rw [List.foldl_cons, ih, h]

theorem State.nutStat_foldFin {n : Nat} {f : Fin n → State → State} (h : ∀ i u, (f i u).nutStat = u.nutStat) (s : State) :
    (foldFin n f s).nutStat = s.nutStat :=
  State.nutStat_foldl (fun u i => h i u) _ s

/-! ### Crossings -/

@[simp] theorem State.nutStat_voidX (s : State) (x : Fin 56) : (s.voidX x).nutStat = s.nutStat := by
  unfold State.voidX
  split
  · rfl
  · rw [State.addSat_eq, State.nutStat_setReg _ _ (by decide)]
    rfl

@[simp] theorem State.nutStat_startGen (s : State) (g : PluckId) : (s.startGen g).nutStat = s.nutStat := by
  have hstat : Reg.plkStat g ≠ Reg.pwrStat := by grind
  unfold State.startGen
  dsimp only
  split
  · split
    · rfl
    · simp [hstat]
  · rfl

@[simp] theorem State.nutStat_startEdge (s : State) (o : OutId) : (s.startEdge o).nutStat = s.nutStat := by
  have hstat : Reg.plkEdgeStat o ≠ Reg.pwrStat := by grind
  unfold State.startEdge
  dsimp only
  split
  · split
    · rfl
    · simp [hstat]
  · rfl

@[simp] theorem State.nutStat_startCommit (s : State) (t : TunId) : (s.startCommit t).nutStat = s.nutStat := by
  have hstat : Reg.tunStatus t ≠ Reg.pwrStat := by grind
  unfold State.startCommit
  dsimp only
  split
  · split
    · rfl
    · simp [hstat]
  · rfl

@[simp] theorem State.nutStat_cutGen (s : State) (x : Fin 56) (cp : List Xfer) (g : PluckId) :
    (s.cutGen x cp g).nutStat = s.nutStat := by
  have hstat : Reg.plkStat g ≠ Reg.pwrStat := by grind
  simp [State.cutGen, hstat]

@[simp] theorem State.nutStat_cutEdge (s : State) (x : Fin 56) (cp : List Xfer) (o : OutId) :
    (s.cutEdge x cp o).nutStat = s.nutStat := by
  have hstat : Reg.plkEdgeStat o ≠ Reg.pwrStat := by grind
  simp [State.cutEdge, hstat]

@[simp] theorem State.nutStat_cutCommits (s : State) (x : Fin 56) (cp : List Xfer) (t : TunId) :
    (s.cutCommits x cp t).nutStat = s.nutStat := by
  have hstat : Reg.tunStatus t ≠ Reg.pwrStat := by grind
  simp [State.cutCommits, hstat]

/-- The transfers of any crossing but the host's, whose cut shows counter registers their old words (R465). -/
theorem State.nutStat_cutX (s : State) {x : Fin 56} (hx : x ≠ 49) : (s.cutX x).nutStat = s.nutStat := by
  have hcopied : (s.copied x).2.nutStat = s.nutStat := rfl
  unfold State.cutX
  split
  next cp s1 heq =>
    rw [heq] at hcopied
    extract_lets s2 s3 s4
    have h2 : s2.nutStat = s1.nutStat :=
      (State.nutStat_foldFin (fun g u => u.nutStat_cutGen x cp g) _).trans (State.nutStat_foldFin (fun t u => u.nutStat_cutCommits x cp t) _)
    have h3 : s3.nutStat = s2.nutStat := State.nutStat_foldFin (fun o u => u.nutStat_cutEdge x cp o) _
    have h4 : s4 = s3 := if_neg hx
    have h : s4.nutStat = s.nutStat := by rw [h4, h3, h2, hcopied]
    clear_value s4
    exact (State.nutStat_congr (s := s4) rfl rfl).trans h

/-! ### Course reset -/

/-- A course's programs do not cross where the host's requests do (R469). -/
theorem crsXing_ne_host (c : CourseId) : crsXing c ≠ 49 := by
  revert c
  decide

@[simp] theorem State.nutStat_freeSlot (s : State) (c : CourseId) (k : Nat) : (s.freeSlot c k).nutStat = s.nutStat := rfl

@[simp] theorem State.nutStat_ringDone (s : State) (t : RingId) (j : Nat) (bs : List Byte) :
    (s.ringDone t j bs).nutStat = s.nutStat := rfl

@[simp] theorem State.nutStat_puntDrop (s : State) (c : CourseId) (u : Punt) : (s.puntDrop c u).nutStat = s.nutStat := by
  have hdrop : Reg.crsPuntDrop c u.ring ≠ Reg.pwrStat := by grind
  unfold State.puntDrop
  extract_lets s0 s1
  have h1 : s1.nutStat = s.nutStat :=
    calc s1.nutStat = s0.nutStat := State.nutStat_congr rfl rfl
      _ = s.nutStat := by simp [s0, hdrop]
  split
  · rw [State.nutStat_freeSlot, h1]
  · exact h1

@[simp] theorem State.nutStat_cutSend (s : State) (e : Send) (d : Done) : (s.cutSend e d).nutStat = s.nutStat := by
  unfold State.cutSend
  split
  · exact State.nutStat_ringDone _ _ _ _
  · rfl

@[simp] theorem State.nutStat_cutSends (s : State) (c : CourseId) (p : PortId) : (s.cutSends c p).nutStat = s.nutStat :=
  State.nutStat_foldl (fun u e => u.nutStat_cutSend e _) _ _

@[simp] theorem State.nutStat_resetStrings (s : State) (c : CourseId) : (s.resetStrings c).nutStat = s.nutStat := by
  unfold State.resetStrings
  rw [State.nutStat_foldl fun u st => ?_, State.nutStat_foldl fun u x => ?_]
  · exact State.nutStat_setCtx _ _ _
  · exact State.nutStat_setReg _ _ (by grind)

@[simp] theorem State.nutStat_loseCode (s : State) (c : CourseId) : (s.loseCode c).nutStat = s.nutStat := rfl

@[simp] theorem State.nutStat_loadEnd (s : State) (result : Nat) : (s.loadEnd result).nutStat = s.nutStat := by
  have hload : Reg.cfgLoad ≠ Reg.pwrStat := by decide
  have hcause : Reg.cfgCause ≠ Reg.pwrStat := by decide
  calc (s.loadEnd result).nutStat
      = (((s.setFld Reg.cfgLoad 13 3 result).setBit Reg.cfgLoad 12 false).orReg Reg.cfgCause 0x20000).nutStat :=
        State.nutStat_congr rfl rfl
    _ = s.nutStat := by simp [hload, hcause]

@[simp] theorem State.nutStat_abortLoad (s : State) (c : CourseId) : (s.abortLoad c).nutStat = s.nutStat := by
  unfold State.abortLoad
  split
  · split
    · simp
    · rfl
  · rfl

@[simp] theorem State.nutStat_courseReset (s : State) (c : CourseId) : (s.courseReset c).nutStat = s.nutStat := by
  unfold State.courseReset
  extract_lets v s1 s2 s3 s4 keep cold s5 s6 s7
  have h1 : s1.nutStat = s.nutStat := State.nutStat_foldl (fun u d => u.nutStat_setReg _ (by grind)) _ _
  have h2 : s2.nutStat = s1.nutStat := State.nutStat_foldl (fun u p => u.nutStat_puntDrop c p) _ _
  have h3 : s3.nutStat = s2.nutStat := State.nutStat_foldl (fun u e => u.nutStat_cutSend _ _) _ _
  have h4 : s4.nutStat = s3.nutStat := State.nutStat_foldFin (fun p u => u.nutStat_cutSends c p) _
  have h5 : s5.nutStat = s4.nutStat := by simp [s5]
  have h6 : s6.nutStat = s5.nutStat :=
    (State.nutStat_foldl (fun u e => u.nutStat_setReg _ (by grind)) _ _).trans (s5.nutStat_setReg _ (by grind))
  have h7 : s7.nutStat = s6.nutStat := (State.nutStat_voidX _ _).trans (s6.nutStat_withBad _)
  have hrun : Reg.crsRun c ≠ Reg.pwrStat := by grind
  rw [State.nutStat_abortLoad, State.setCrsState, State.setFld_eq, State.nutStat_setReg _ _ hrun, State.nutStat_cutX _ (crsXing_ne_host c),
    h7, h6, h5, h4, h3, h2, h1]

/-! ### The DMA engines and a load -/

@[simp] theorem State.nutStat_recordLost (s : State) : s.recordLost.nutStat = s.nutStat := by
  have hlost : Reg.dmpLost ≠ Reg.pwrStat := by decide
  have hcause : Reg.dmpCause ≠ Reg.pwrStat := by decide
  have hstat : Reg.dmpStat ≠ Reg.pwrStat := by decide
  calc s.recordLost.nutStat = (((s.addSat Reg.dmpLost 1).orReg Reg.dmpCause 0x40000).setBit Reg.dmpStat 18 false).nutStat :=
        State.nutStat_congr rfl rfl
    _ = s.nutStat := by simp [hlost, hcause, hstat]

@[simp] theorem State.nutStat_dmaReset (s : State) : s.dmaReset.nutStat = s.nutStat := by
  unfold State.dmaReset
  extract_lets s1 s2 s3
  have h1 : s1.nutStat = s.nutStat := by
    unfold s1
    split
    · exact s.nutStat_recordLost
    · rfl
  have h2 : s2.nutStat = s1.nutStat :=
    (State.nutStat_clearRegs _ (.inl (by decide))).trans (State.nutStat_clearRegs _ (.inr (by decide)))
  have h3 : s3.nutStat = s2.nutStat :=
    (State.nutStat_setReg _ _ (by decide)).trans (State.nutStat_clearRegs _ (.inl (by decide)))
  clear_value s3
  exact (State.nutStat_congr (s := s3) rfl rfl).trans (h3.trans (h2.trans h1))

@[simp] theorem State.nutStat_warmLoad (s : State) : s.warmLoad.nutStat = s.nutStat := by
  have hstat : Reg.cfgStat ≠ Reg.pwrStat := by decide
  unfold State.warmLoad
  split
  next j _ =>
    extract_lets s1
    have h1 : s1.nutStat = s.nutStat := s.nutStat_abortLoad j.course
    split
    · rw [State.nutStat_loadEnd, State.setFld_eq, State.nutStat_setReg _ _ hstat, h1]
    · exact h1
  · rfl

/-! ### Port reset -/

@[simp] theorem State.nutStat_endSend (s : State) (e : Send) (d : Done) : (s.endSend e d).nutStat = s.nutStat := rfl
@[simp] theorem State.nutStat_endWith (s : State) (e : Send) (status : Nat) : (s.endWith e status).nutStat = s.nutStat := rfl

@[simp] theorem State.nutStat_abortSend (s : State) (e : Send) : (s.abortSend e).nutStat = s.nutStat := by
  have hstat : Reg.fretStat e.port ≠ Reg.pwrStat := by grind
  have hcnt : Reg.fretAbortCnt e.port ≠ Reg.pwrStat := by grind
  simp [State.abortSend, hstat, hcnt]

@[simp] theorem State.nutStat_txAbort (s : State) (p : PortId) : (s.txAbort p).nutStat = s.nutStat :=
  State.nutStat_foldl State.nutStat_abortSend _ _

@[simp] theorem State.nutStat_dropQueues (s : State) (p : PortId) : (s.dropQueues p).nutStat = s.nutStat :=
  State.nutStat_foldl (fun u e => u.nutStat_endWith e 6) _ _

@[simp] theorem State.nutStat_linkEval (s : State) (p : PortId) : (s.linkEval p).nutStat = s.nutStat := by
  have hstat : Reg.prtStat p ≠ Reg.pwrStat := by grind
  have hcause : Reg.prtCause p ≠ Reg.pwrStat := by grind
  unfold State.linkEval
  extract_lets new s1
  have h1 : s1.nutStat = s.nutStat := by simp [s1, hstat, hcause]
  split_ifs
  · rfl
  · exact h1
  · rw [State.nutStat_dropQueues, h1]

@[simp] theorem State.nutStat_loseLock (s : State) (p : PortId) : (s.loseLock p).nutStat = s.nutStat := by
  have hstat : Reg.prtStat p ≠ Reg.pwrStat := by grind
  have hfret : Reg.fretStat p ≠ Reg.pwrStat := by grind
  simp [State.loseLock, hstat, hfret]

@[simp] theorem State.nutStat_portReset (s : State) (p : PortId) : (s.portReset p).nutStat = s.nutStat := by
  have hstat : Reg.prtStat p ≠ Reg.pwrStat := by grind
  have hfret : Reg.pwrStat < Reg.fretStat p := by grind
  have hspec : Reg.pwrStat < Reg.fretSpecCnt p := by grind
  simp [State.portReset, hstat, hfret, hspec]

/-! ### The recovered clocks -/

@[simp] theorem State.nutStat_setRs (s : State) (r : SlotId) (st : Nat) : (s.setRs r st).nutStat = s.nutStat := by
  have hstat : Reg.brgRsStat r ≠ Reg.pwrStat := by grind
  have hcause : Reg.brgCause ≠ Reg.pwrStat := by decide
  unfold State.setRs
  split_ifs
  · rfl
  · simp [hstat, hcause]
  · simp [hstat, hcause]

@[simp] theorem State.nutStat_rsToFault (s : State) (r : SlotId) : (s.rsToFault r).nutStat = s.nutStat := by
  have hstat : Reg.brgRsStat r ≠ Reg.pwrStat := by grind
  unfold State.rsToFault
  extract_lets s1 s2
  have h1 : s1.nutStat = s.nutStat := by simp [s1, hstat]
  rw [State.nutStat_setRs]
  unfold s2
  split
  · simp [hstat, h1]
  · exact h1

@[simp] theorem State.nutStat_rsUpdate (s : State) (r : SlotId) : (s.rsUpdate r).nutStat = s.nutStat := by
  have hstat : Reg.brgRsStat r ≠ Reg.pwrStat := by grind
  unfold State.rsUpdate
  extract_lets s1
  have h1 : s1.nutStat = s.nutStat := by
    unfold s1
    split
    · simp [hstat]
    · rfl
  split_ifs <;> simp [hstat, h1]

@[simp] theorem State.nutStat_rsLos (s : State) : s.rsLos.nutStat = s.nutStat := by
  unfold State.rsLos
  split
  · rw [State.wantSelect, State.nutStat_brg, State.nutStat_foldFin fun r u => ?_]
    have hstat : Reg.brgRsStat r ≠ Reg.pwrStat := by grind
    split
    · simp [State.setFault, hstat]
    · rfl
  · rfl

@[simp] theorem State.nutStat_gateLos (s : State) (u : GateUnit) : (s.gateLos u).nutStat = s.nutStat := by
  cases u <;> rfl

@[simp] theorem State.nutStat_setLedMode (s : State) (l m : Nat) : (s.setLedMode l m).nutStat = s.nutStat := by
  unfold State.setLedMode
  split
  · exact State.nutStat_setReg _ _ (by decide)
  · exact State.nutStat_setReg _ _ (by grind)

@[simp] theorem State.nutStat_applyBinding (s : State) (code : Nat) : (s.applyBinding code).nutStat = s.nutStat := by
  unfold State.applyBinding
  split
  · exact State.nutStat_setLedMode _ _ _
  · rfl

@[simp] theorem State.nutStat_panelEvent (s : State) (code : Nat) : (s.panelEvent code).nutStat = s.nutStat := by
  have hcause : Reg.pnlCause ≠ Reg.pwrStat := by decide
  have hlost : Reg.pnlEvtLost ≠ Reg.pwrStat := by decide
  unfold State.panelEvent
  split
  · extract_lets w4 e queued s1
    have h1 : s1.nutStat = s.nutStat := by
      unfold s1
      split
      · simp [hcause]
      · simp [hcause, hlost]
    rw [State.nutStat_applyBinding, h1]
  · rfl

@[simp] theorem State.nutStat_fmuLost (s : State) (u : FmuId) : (s.fmuLost u).nutStat = s.nutStat := by
  have hstat : Reg.brgFmuStat u ≠ Reg.pwrStat := by grind
  unfold State.fmuLost
  split
  · rfl
  · extract_lets s1
    have h1 : s1.nutStat = s.nutStat := by simp [s1, hstat]
    split
    · rw [State.nutStat_panelEvent, h1]
    · exact h1

@[simp] theorem State.nutStat_portScope (s : State) (p : PortId) : (s.portScope p).nutStat = s.nutStat := by
  unfold State.portScope State.recoveryLost
  rw [State.nutStat_foldFin fun u t => ?_, State.nutStat_portReset]
  split
  · exact t.nutStat_fmuLost u
  · rfl

/-! ### The registers that a warm reset clears, and the harp -/

@[simp] theorem State.nutStat_warmClear (s : State) : s.warmClear.nutStat = s.nutStat := by
  unfold State.warmClear
  extract_lets mods keep s1
  have h1 : s1.nutStat = s.nutStat :=
    (State.nutStat_congr rfl rfl).trans (s.nutStat_filter (fun e => keep e.1) fun _ => rfl)
  rw [State.nutStat_foldl fun u p => ?_, h1]
  exact State.nutStat_setReg _ _ (by grind)

@[simp] theorem State.nutStat_setMapValid (s : State) (b : Bool) : (s.setMapValid b).nutStat = s.nutStat := by
  have hstat : Reg.harpStat ≠ Reg.pwrStat := by decide
  have hcause : Reg.harpCause ≠ Reg.pwrStat := by decide
  unfold State.setMapValid
  split
  · rfl
  · simp [hstat, hcause]

@[simp] theorem State.nutStat_chEnter (s : State) (h : ChanId) (st : Nat) : (s.chEnter h st).nutStat = s.nutStat := by
  have hstat : Reg.harpChStat h ≠ Reg.pwrStat := by grind
  have hmp : Reg.harpChMp h ≠ Reg.pwrStat := by grind
  have hcause : Reg.harpChCause (h.val / 20) ≠ Reg.pwrStat := by grind
  unfold State.chEnter
  extract_lets was s1 s2 at0 held heard s3
  have h1 : s1.nutStat = s.nutStat := by simp [s1, hstat]
  have h2 : s2.nutStat = s1.nutStat := by
    unfold s2
    split
    · rfl
    · simp [hcause]
  have h3 : s3.nutStat = s2.nutStat := rfl
  split
  · simp [State.onChan, hmp, h3, h2, h1]
  · rw [h3, h2, h1]

@[simp] theorem State.nutStat_harpReset (s : State) : s.harpReset.nutStat = s.nutStat := by
  have hstat : Reg.harpStat ≠ Reg.pwrStat := by decide
  unfold State.harpReset
  rw [State.nutStat_onHarp, State.nutStat_foldFin fun h u => ?_]
  · simp [hstat]
  · rw [State.nutStat_chEnter, State.setBit_eq, State.nutStat_setReg _ _ (by grind), State.nutStat_note]

@[simp] theorem State.nutStat_harpWarm (s : State) : s.harpWarm.nutStat = s.nutStat :=
  calc s.harpWarm.nutStat
      = (s.harpReset.onHarp fun v => { v with sreqDue := false }).nutStat := State.nutStat_filter _ _ fun _ => rfl
    _ = s.nutStat := by rw [State.nutStat_onHarp, State.nutStat_harpReset]

/-! ### The start of a warm reset (R472 to R474) -/

/-- Of the nut and PWR_STAT the first tick of a warm reset changes WARM alone: the resets of its scopes leave both. -/
theorem State.nutStat_warmStart (s : State) : s.warmStart.nutStat = (s.setBit Reg.pwrStat 18 true).nutStat := by
  unfold State.warmStart
  extract_lets s1 s2
  have hlast : Reg.pwrRstLast ≠ Reg.pwrStat := by decide
  have hcfg : Reg.cfgStat ≠ Reg.pwrStat := by decide
  have h1 : s1.nutStat = (s.setBit Reg.pwrStat 18 true).nutStat := by
    rw [State.nutStat_warmLoad, State.setBit_eq _ Reg.cfgStat, State.nutStat_setReg _ _ hcfg, State.nutStat_note,
      State.setBit_eq _ Reg.pwrRstLast, State.nutStat_setReg _ _ hlast, State.nutStat_note]
  have h2 : s2.nutStat = s1.nutStat :=
    (State.nutStat_foldFin (fun c u => u.nutStat_courseReset c) _).trans s1.nutStat_dmaReset
  rw [State.nutStat_harpWarm, State.nutStat_warmClear, State.nutStat_foldFin (fun p u => u.nutStat_portScope p), h2, h1]

/-- A warm reset starts with PWR_STAT.WARM set, and the nut runs on through it (R472, R473, R481). -/
theorem State.warmStart_warm (s : State) : s.warmStart.rBit Reg.pwrStat 18 = true ∧ s.warmStart.nut = s.nut := by
  obtain ⟨hnut, hreg⟩ := State.nutStat_eq_iff.mp s.nutStat_warmStart
  constructor
  · rw [State.rBit, hreg, State.setBit_eq, State.reg_setReg_self, bitOf_putBit _ _ _ _ (by decide), if_pos rfl]
  · rw [hnut, State.setBit_eq, State.setReg_nut, State.note_nut]

/-! ### A cold reset -/

/-- A cold reset leaves what R472 and R481 say, with its source. -/
theorem State.coldReset_coldFrom (s : State) {src : Nat} (h : src < 2 ^ 3) : s.coldFrom (s.coldReset src) src := by
  refine ⟨rfl, rfl, rfl, rfl, rfl, fun a hlo hlast => ?_, ?_⟩
  · unfold State.coldReset
    simp only [State.setFld_eq, State.reg_setReg_ne _ _ hlo, State.reg_setReg_ne _ _ hlast]
    rfl
  · unfold State.coldReset
    simp only [State.setFld_eq, State.rFld_setReg, if_pos]
    rw [fld_putFld _ _ _ _ (by decide), Nat.mod_eq_of_lt h]

/-! ### A write of DEV_RST -/

/-- A slot write to DEV_RST is a write of the register: no step sequence holds it. -/
theorem State.writeWord_devRst (s : State) (v : Word) : s.writeWord Reg.devRst v = s.devRstWrite v := by
  have hheld : (s.holding && decide (Reg.tunNewVal 0 ≤ Reg.devRst) && decide (Reg.devRst < Reg.tunNewRate 0)) = false := by
    rw [decide_eq_false (by decide : ¬ Reg.tunNewVal 0 ≤ Reg.devRst), Bool.and_false, Bool.false_and]
  rw [State.writeWord, hheld]
  rfl

/-- Each command that writes DEV_RST, where the host's write reaches it, is a write of the register. -/
theorem exec_devRst {s : State} {v : Word} {c : Instr} (hopen : s.hostOpen Reg.devRst = true)
    (hc : c = .coldResetCmd v ∨ c = .warmReset v ∨ c = .registerWrite Reg.devRst v true) : exec c s = .next (s.devRstWrite v) := by
  obtain rfl | rfl | rfl := hc
  · exact congrArg _ (s.hostWrite_open _ _ hopen)
  · exact congrArg _ (s.hostWrite_open _ _ hopen)
  · have haddr : s.hostAddr Reg.devRst = Reg.devRst := rfl
    change execRegisterWrite Reg.devRst v true s = _
    rw [execRegisterWrite, if_pos rfl, haddr, if_pos (by decide), s.hostWrite_open _ _ hopen, s.writeWord_devRst]

/-- Without its key the write sets DEV_CFG_ERR. -/
theorem State.devRstWrite_noKey (s : State) {v : Word} (hkey : fld v 0 16 ≠ 0xA5C3) :
    s.devRstWrite v = s.setBit Reg.devCfgErr 19 true := if_pos hkey

theorem State.devRstWrite_cold (s : State) {v : Word} (hkey : fld v 0 16 = 0xA5C3) (hcold : bitOf v 18 = true) :
    s.devRstWrite v = s.coldReset 2 := by
  rw [State.devRstWrite, if_neg (not_not.mpr hkey), if_pos hcold]

theorem State.devRstWrite_notCold (s : State) {v : Word} (hkey : fld v 0 16 = 0xA5C3) (hcold : bitOf v 18 = false) :
    s.devRstWrite v = if bitOf v 19 && !s.rBit Reg.pwrStat 18 then s.warmStart else s := by
  rw [State.devRstWrite, if_neg (not_not.mpr hkey), if_neg (by simp [hcold])]

/-- A bit put changes its register alone. -/
theorem State.onlyRegs_setBit (s : State) (a n : Nat) (b : Bool) : s.onlyRegs (s.setBit a n b) [a] :=
  ⟨rfl, State.regsBut_setReg (s.regsBut_refl [a]) (List.mem_singleton_self a) _⟩

end Sys2Proof.Machine

open Sys2Proof Sys2Proof.Machine

/-- Settles O14: the write is one operation for every command that carries it, and each clause is a branch of it. -/
theorem resetRequests : Obligations.ResetRequests := by
  unfold Obligations.ResetRequests
  intro s v c hopen hc
  rw [exec_devRst hopen hc]
  refine ⟨fun hkey => ?_, fun hkey hcold => ?_, fun hkey hcold hwarm hidle => ?_, fun hkey hcold hwarm hbusy => ?_,
    fun hkey hcold hwarm => ?_⟩
  · refine ⟨_, rfl, ?_, ?_⟩
    · rw [s.devRstWrite_noKey hkey, State.setBit_eq, State.rBit_setReg, if_pos rfl, bitOf_putBit _ _ _ _ (by decide), if_pos rfl]
    · rw [s.devRstWrite_noKey hkey]
      exact s.onlyRegs_setBit _ _ _
  · exact ⟨_, rfl, s.devRstWrite_cold hkey hcold ▸ s.coldReset_coldFrom (by decide)⟩
  · have hstart : s.devRstWrite v = s.warmStart := by
      rw [s.devRstWrite_notCold hkey hcold, hwarm, hidle]
      rfl
    exact ⟨_, rfl, hstart ▸ s.warmStart_warm⟩
  · rw [s.devRstWrite_notCold hkey hcold, hbusy, Bool.not_true, Bool.and_false, if_neg Bool.false_ne_true]
  · rw [s.devRstWrite_notCold hkey hcold, hwarm, Bool.false_and, if_neg Bool.false_ne_true]
end
